-- ==== Sys2Proof/Word.lean ====
section
/-! DEFINITION. The byte and the 16-bit check value of the part, and the saturating sum of its counters. -/

namespace Sys2Proof

/-- One byte of a frame, a text or a reply (R175). -/
abbrev Byte := BitVec 8

/-- A 16-bit check value or CRC (R25, R175). -/
abbrev Check := BitVec 16

/-- A saturating sum: a count that can reach a stated bound stays there (00 section 5.2). -/
def satAdd (bound a b : Nat) : Nat := min (a + b) bound

end Sys2Proof
end

