-- ==== Sys2Proof/Config.lean ====
section
/-! DEFINITION. The bounds the spec fixes for the part, and the values it leaves open (opaque constants
without a body: a claim holds whatever they are). -/

namespace Sys2Proof.Config

/-- Bound of the totalizers, of the steps, distance and waiting seconds of a trip, and of the sums of a
closed-trip entry (R38, R51, R60). -/
abbrev countMax : Nat := 999999999

/-- Bound of the computed fare (R14). -/
abbrev fareMax : Nat := 9999999

/-- Bound of metres-this-interval (R2). -/
abbrev metresMax : Nat := 65535

/-- Most metres charged for one evaluation (R9). -/
abbrev clampMetres : Nat := 200

/-- Entries the closed-trip list holds (R51). -/
abbrev closedMax : Nat := 8

/-- Entries the Offer Table holds (R88). -/
abbrev offersMax : Nat := 8

/-- Entries the inbound list holds (R109). -/
abbrev inboundMax : Nat := 16

/-- Numbers the recently-removed list holds (R110). -/
abbrev removedMax : Nat := 8

/-- Entries the outbound list holds (R117). -/
abbrev outboundMax : Nat := 6

/-- General positions of the Uplink Queue (R154). -/
abbrev generalMax : Nat := 8

/-- Blocks of the Text Block Pool (R79). -/
abbrev poolBlocks : Nat := 64

/-- Characters of one block (R79). -/
abbrev blockChars : Nat := 32

/-- Free blocks that messages may not take (R81). -/
abbrev reserveBlocks : Nat := 8

/-- Entries the Fault Log holds (R180). -/
abbrev faultMax : Nat := 16

/-- FREE VALUE (log 8, DESIGN CHOICE of form): the random draws of R157 and R162. The n-th value used is
`draw n`; the machine takes it modulo the number of values the rule allows, all equally likely. -/
opaque draw : Nat → Nat

/-- FREE VALUE (log 9): whether a part of a second is counted up in the "seconds remaining" of R108 and
R142. The argument is the part second in milliseconds. -/
opaque partSecondCounts : Nat → Bool

/-- FREE VALUE (log 10): the bytes that the arrival order takes in a READ OFFER (R87 gives no range). -/
opaque arrivalOrderBytes : Nat

/-- FREE VALUE (log 11): the trip-active flag of a CLOCK NOT SET placed by the lookup of a FLAG DOWN,
which is one change with the trip becoming RUNNING (R6, R35, R180). -/
opaque flagDownFaultIsActive : Bool

/-- FREE VALUE (log 12): whether, at a READ NOTICES, the sign of the terminal (R77) comes before the
notice set is taken (R170); both stand at the same instant. -/
opaque signBeforeNotices : Bool

end Sys2Proof.Config
end

