-- ==== Sys2Proof/Syntax.lean ====
section
/-! DEFINITION. The commands of the part, one constructor of `Instr` for each row of
spec/opcode_table.json, and the types of their operands. Numbers carried in a request are raw wire values:
the owner of the request judges them (R166). -/

namespace Sys2Proof

/-- The two serial ports (10). -/
inductive Port where
  | meter
  | terminal
  deriving DecidableEq, Repr

/-- The two alarm inputs (R123). -/
inductive AlarmLine where
  | alm0
  | alm1
  deriving DecidableEq, Repr

/-- A level of an alarm line (R123). -/
inductive Level where
  | low
  | high
  deriving DecidableEq, Repr

/-- The address of a downlink frame (R145, R176): one cab by number, all cabs, or a zone. -/
inductive Address where
  | cab (number : Nat)
  | all
  | zone (number : Nat)
  deriving DecidableEq, Repr

/-- Whether an offer goes to one cab or to a zone (R87). -/
inductive DestKind where
  | directed
  | zone
  deriving DecidableEq, Repr

/-- The fields of a CYCLE HEAD (R146). -/
structure HeadFields where
  cycle : Nat
  slots : Nat
  ts : Nat
  tl : Nat
  reservations : List Nat
  acks : List (Nat × Nat)
  deriving DecidableEq, Repr

/-- The fields of an OFFER frame (R87, R176). The estimate and the deadline are the frame's raw values. -/
structure OfferFields where
  number : Nat
  dest : DestKind
  stackable : Bool
  account : Bool
  zone : Nat
  estimate : Nat
  deadline : Nat
  text : List Byte
  deriving DecidableEq, Repr

/-- How far a start has come when a loss of VMAIN or an assertion of RSTN abandons it (R179): its kind is decided and the cold values are set (steps
1 and 2), the active image is checked, both images are (step 3), the trip is continued (step 4), or the emergency is (steps 5 and 6). -/
inductive StartReach where
  | kind
  | activeImage
  | images
  | trip
  | emergency
  deriving DecidableEq, Repr

/-- What a loss of VMAIN or an assertion of RSTN makes of the Retained Domain (R178): it keeps its contents (RSTN, or VMAIN alone lost), it is lost or
corrupt (both supplies, or corruption), so that its check value no longer agrees, or an image in it is damaged in a way that only the image's own
check value shows (R31; log 6). Where the loss abandons a start under way, it keeps the changes that this start has made (R179; log 5). -/
inductive DomainFate where
  | kept
  | lost
  | activeDamaged
  | pendingDamaged
  | bothDamaged
  | leftByStart (reach : StartReach)
  deriving DecidableEq, Repr

/-- A command of the part: one constructor for each row of spec/opcode_table.json, in its order. -/
inductive Instr where
  | distPulse
  | evaluation
  | flagDown (mode band : Nat)
  | stop
  | resume
  | clear
  | addExtra (n : Nat)
  | readTrip (port : Port)
  | readClosed (n : Nat)
  | readTotals
  | loadTariffPart (part : Nat) (content : List Byte)
  | commitTariff (expected : Nat)
  | readTariffCheck
  | setClock (day hour minute second : Nat)
  | readClock
  | calibrate (k : Nat)
  | setIdentity (cab fleet : Nat)
  | setAirRate (rate : Nat)
  | setKeyLead (ms : Nat)
  | setStatusInterval (seconds : Nat)
  | setAlarmVisible (value : Nat)
  | setUrgentSet (count spacing space : Nat)
  | setSustainedSet (count spacing space : Nat)
  | setSensitivity (line : AlarmLine) (value : Nat)
  | readInstallation
  | readEmergency
  | readFaults
  | clearFaults
  | setNotices (port : Port) (enable : Nat)
  | readNotices (port : Port)
  | readReply (port : Port)
  | signOn
  | signOff
  | soonClear (minutes : Nat)
  | cancelClear
  | noShow
  | readJob (selector : Nat)
  | setZones (zones : List Nat)
  | setOfferMode (value : Nat)
  | readOffer (n : Nat)
  | accept (number : Nat)
  | decline (number : Nat)
  | dismiss (number : Nat)
  | readMessage (n : Nat)
  | markRead (number : Nat)
  | delete (number : Nat)
  | reply (number canned : Nat) (text : List Byte)
  | sendMessage (canned : Nat) (text : List Byte)
  | readOutbound (n : Nat)
  | dismissOutbound (localNumber : Nat)
  | setPosition (latitude longitude : Int)
  | setPriority (kind level : Nat)
  | readPriorities
  | readStatus
  | alarmCancel
  | airFrameDropped (frame : List Byte) (blanked : Bool)
  | cycleHead (address : Address) (head : HeadFields)
  | backoffEnd (arrival : Nat)
  | retryLimitReached (arrival : Nat)
  | linkLost
  | contentionSlot
  | reservedSlot (place : Nat)
  | transmissionEnd
  | offer (address : Address) (fields : OfferFields)
  | award (address : Address) (number : Nat)
  | lost (address : Address) (number : Nat)
  | withdraw (address : Address) (number : Nat)
  | jobCancel (address : Address) (number : Nat)
  | poll (address : Address)
  | message (address : Address) (number cls : Nat) (text : List Byte)
  | alertSeen (address : Address)
  | standDown (address : Address)
  | beaconHold (address : Address) (count : Nat)
  | alarmLineLevel (alm0 alm1 : Option Level)
  | lineArmed (line : AlarmLine) (level : Level)
  | alarmLineStuck (line : AlarmLine)
  | cancelWindowExpiry
  | beaconCycleStart
  | beaconBurst
  | blindTransmissionEnd
  | resumeWindowExpiry
  | statusIntervalExpiry
  | presenceTimerExpiry
  | deadlineExpiry (number : Nat)
  | awardTimerExpiry (number : Nat)
  | clockTick
  | vmainLossOrReset (fate : DomainFate)
  | start
  | requestFrameReceived (port : Port) (bytes : List Byte)
  deriving DecidableEq, Repr

end Sys2Proof
end

