-- ==== Sys2Proof/Machine/State.lean ====
section
/-! DEFINITION. The state of the part as plain data, block by block (00 section 2), the state right after a
cold start, and the reasons a step could stop. Instants and timers are in milliseconds of the part's own time base. -/

namespace Sys2Proof.Machine

open Sys2Proof

/-! ## Clock, tariff and trip (01, 02, 03) -/

/-- A reading of the calendar clock, with its set flag; also the clock itself (R32). Day 1 is Monday, 7 Sunday. -/
structure ClockReading where
  isSet : Bool
  day : Nat
  hour : Nat
  minute : Nat
  second : Nat
  deriving DecidableEq, Repr

/-- The step mode of a band (R23): S single, D double. -/
inductive StepMode where
  | single
  | double
  deriving DecidableEq, Repr

/-- The seven values of a band (R23). -/
structure Band where
  f0 : Nat
  d0 : Nat
  a : Nat
  dstep : Nat
  tstep : Nat
  mode : StepMode
  fmin : Nat
  deriving DecidableEq, Repr

/-- One schedule entry (R24). Bit 0 of the day set is Monday, bit 6 Sunday. -/
structure ScheduleEntry where
  days : BitVec 7
  start : Nat
  band : Nat
  deriving DecidableEq, Repr

/-- One extra of a tariff image (R24). -/
structure Extra where
  amount : Nat
  maxCount : Nat
  deriving DecidableEq, Repr

/-- A tariff image (R23, R24). -/
structure Image where
  version : Nat
  band1 : Band
  band2 : Band
  band3 : Band
  band4 : Band
  schedule : List ScheduleEntry
  extras : List Extra
  deriving DecidableEq, Repr

/-- An image in the active or pending place, with the check value it was committed with (R25). -/
structure StoredImage where
  image : Image
  check : Check
  deriving DecidableEq, Repr

/-- The staged place: each part absent or received (R26, R27). -/
structure Staged where
  part0 : Option (Nat × Band × Band)
  part1 : Option (Band × Band)
  part2 : Option (List ScheduleEntry)
  part3 : Option (List Extra)
  deriving DecidableEq, Repr

/-- The Tariff Store (02). -/
structure TariffStore where
  active : Option StoredImage
  pending : Option StoredImage
  staged : Staged
  clock : ClockReading
  clockUnsetMark : Bool
  deriving DecidableEq, Repr

/-- AUTO or FIXED (R38). -/
inductive BandMode where
  | auto
  | fixed
  deriving DecidableEq, Repr

/-- RUNNING, or STOPPED with the stopped total and the minimum uplift, which are present in STOPPED only (R17, R38). -/
inductive TripPhase where
  | running
  | stopped (total uplift : Nat)
  deriving DecidableEq, Repr

/-- The job number of a trip, with the job-cancelled mark, which is present only with it (R38). -/
structure TripJob where
  number : Nat
  cancelled : Bool
  deriving DecidableEq, Repr

/-- The trip record in RUNNING and STOPPED (R38). In IDLE there is none: the fields are absent. -/
structure Trip where
  phase : TripPhase
  mode : BandMode
  flagDownBand : Nat
  band : Nat
  pendingBand : Option Nat
  progress : Nat
  remaining : Nat
  flagDownTime : ClockReading
  f0 : Nat
  fare : Nat
  steps : Nat
  distance : Nat
  waiting : Nat
  extras : List (Nat × Nat)
  job : Option TripJob
  interruptions : Nat
  saturated : Bool
  speedFault : Bool
  emergency : Bool
  deriving DecidableEq, Repr

/-- The Distance Counter (R1 to R3). -/
structure Distance where
  remainder : Nat
  metres : Nat
  deriving DecidableEq, Repr

/-- An entry of the closed-trip list (R51). -/
structure ClosedTrip where
  count : Nat
  first : ClockReading
  last : ClockReading
  total : Nat
  extras : Nat
  distance : Nat
  job : Option Nat
  reported : Bool
  pinned : Bool
  unsent : Bool
  deriving DecidableEq, Repr

/-- The eight totalizers (R60). -/
structure Totals where
  distance : Nat
  hired : Nat
  trips : Nat
  fare : Nat
  extras : Nat
  steps : Nat
  interruptions : Nat
  reported : Nat
  deriving DecidableEq, Repr

/-! ## Duty, offers, messages and the pool (04 to 07) -/

/-- The five duty states (R62). -/
inductive DutyState where
  | offDuty
  | vacant
  | assigned
  | hired
  | clearing
  deriving DecidableEq, Repr

/-- Terminal presence (R77). -/
inductive Presence where
  | present
  | absent
  | notTracked
  deriving DecidableEq, Repr

/-- The text of a holder: its block list in order and its length in characters (R79). -/
structure TextRef where
  blocks : List Nat
  length : Nat
  deriving DecidableEq, Repr

/-- A job record (R68). -/
structure Job where
  number : Nat
  zone : Nat
  account : Bool
  estimate : Option Nat
  text : TextRef
  truncated : Bool
  deriving DecidableEq, Repr

/-- The kinds of JOB EVENT (R76). -/
inductive JobEventKind where
  | noShow
  | release
  deriving DecidableEq, Repr

/-- The failed-job-event record (R76). -/
structure FailedJobEvent where
  kind : JobEventKind
  number : Nat
  deriving DecidableEq, Repr

/-- The Duty Unit (04). A timer is absent when stopped, else the instant of its expiry. -/
structure DutyUnit where
  state : DutyState
  signedOn : Bool
  presence : Presence
  presenceDue : Option Nat
  soonClear : Option Nat
  current : Option Job
  next : Option Job
  failedEvent : Option FailedJobEvent
  statusDue : Option Nat
  deriving DecidableEq, Repr

/-- The holders of text blocks (R79). -/
inductive Holder where
  | offer (number : Nat)
  | currentJob
  | nextJob
  | inbound (number : Nat)
  | outbound (localNumber : Nat)
  deriving DecidableEq, Repr

/-- A block of the Text Block Pool: free, or tagged with its holder and holding characters (R79). -/
structure Block where
  owner : Option Holder
  chars : List Byte
  deriving DecidableEq, Repr

/-- Reasons of a DECLINE (R87, R99). TABLE FULL is a reason of the report only (R92). -/
inductive DeclineReason where
  | driver
  | otherAccepted
  | busy
  | unavailable
  | terminalAbsent
  | notSignedOn
  | tableFull
  deriving DecidableEq, Repr

/-- The states of an offer entry (R87), with the instant at which the timer that the state runs expires: the deadline timer in
OFFERED, the award timer in ACCEPTING and AWAITING AWARD. -/
inductive OfferState where
  | offered (deadlineDue : Nat)
  | accepting (awardDue : Nat)
  | awaitingAward (awardDue : Nat)
  | declined (reason : DeclineReason)
  | expired
  | lost
  | withdrawn
  | abandoned
  deriving DecidableEq, Repr

/-- An offer entry (R87). -/
structure Offer where
  number : Nat
  dest : DestKind
  zone : Nat
  stackable : Bool
  account : Bool
  estimate : Option Nat
  text : TextRef
  truncated : Bool
  deadline : Nat
  arrival : Nat
  state : OfferState
  deriving DecidableEq, Repr

/-- The offer mode (R98). -/
inductive OfferMode where
  | single
  | multi
  deriving DecidableEq, Repr

/-- The Offer Table (R88). -/
structure OfferTable where
  entries : List Offer
  zones : List Nat
  mode : OfferMode
  nextArrival : Nat
  deriving DecidableEq, Repr

/-- The four message classes (R109). -/
inductive MessageClass where
  | info
  | replyRequired
  | priority
  | broadcast
  deriving DecidableEq, Repr

/-- An entry of the inbound list (R109). -/
structure Inbound where
  number : Nat
  cls : MessageClass
  arrival : ClockReading
  text : TextRef
  read : Bool
  replied : Bool
  deriving DecidableEq, Repr

/-- The content of an outbound entry (R117). -/
inductive OutboundContent where
  | canned (code : Nat)
  | text (ref : TextRef)
  deriving DecidableEq, Repr

/-- The states of an outbound entry (R117). -/
inductive OutboundState where
  | waiting
  | queued
  | delivered
  | failed
  deriving DecidableEq, Repr

/-- An entry of the outbound list (R117). -/
structure Outbound where
  localNumber : Nat
  linked : Option Nat
  content : OutboundContent
  state : OutboundState
  deriving DecidableEq, Repr

/-- The Message Store (07). -/
structure MessageStore where
  inbound : List Inbound
  removed : List Nat
  outbound : List Outbound
  nextLocal : Nat
  deriving DecidableEq, Repr

/-! ## Emergency (08) -/

/-- The emergency state (R126). -/
inductive EmergencyState where
  | normal
  | alerting
  | seen
  deriving DecidableEq, Repr

/-- The beacon set (R126). -/
inductive BeaconSet where
  | urgent
  | sustained
  deriving DecidableEq, Repr

/-- The part of a beacon cycle (R126). -/
inductive BeaconPhase where
  | mark
  | space
  deriving DecidableEq, Repr

/-- The emergency record (R126). -/
structure EmergencyRecord where
  state : EmergencyState
  presses : Nat
  startTime : Option ClockReading
  cancelOpen : Bool
  beaconSet : BeaconSet
  position : Option (Nat × BeaconPhase)
  hold : Nat
  pinIntent : Bool
  deriving DecidableEq, Repr

/-- The beacon cycle in progress and the beacon timer (R135, R136): the values the cycle runs by, whether it is held, the index of
the next burst of its mark, and the instant of the next burst or, in the space, of the next cycle. -/
structure BeaconCycle where
  count : Nat
  spacing : Nat
  space : Nat
  held : Bool
  nextBurst : Nat
  due : Nat
  deriving DecidableEq, Repr

/-- The uplink levels of the seven kinds other than ALERT (R151, R152). -/
structure Levels where
  accept : Nat
  jobEvent : Nat
  fareTotal : Nat
  receipt : Nat
  status : Nat
  decline : Nat
  driverMessage : Nat
  deriving DecidableEq, Repr

/-- What the Alarm Unit holds of one line: the level it has last reached (unknown before the first), and its armed and stuck
marks (R123, R124). -/
structure LineState where
  level : Option Level
  armed : Bool
  stuck : Bool
  deriving DecidableEq, Repr

/-- The Alarm Unit (08). -/
structure AlarmUnit where
  record : EmergencyRecord
  cancelDue : Option Nat
  cycle : Option BeaconCycle
  saved : Option Levels
  latch : Bool
  line0 : LineState
  line1 : LineState
  deriving DecidableEq, Repr

/-! ## Radio Link (09) -/

/-- The eight kinds of Uplink Queue entry, in the order of their ranks (R151). -/
inductive Kind where
  | alert
  | accept
  | jobEvent
  | fareTotal
  | receipt
  | status
  | decline
  | driverMessage
  deriving DecidableEq, Repr

/-- The reasons recorded in a STATUS, in the order of R73. -/
inductive StatusReason where
  | signOn
  | signOff
  | duty
  | job
  | presence
  | interval
  | poll
  | jobEventFailed
  deriving DecidableEq, Repr

/-- The status carried by a RECEIPT (R114). -/
inductive ReceiptStatus where
  | stored
  | full
  | read
  deriving DecidableEq, Repr

/-- The kind of an entry with its owner reference and what the entry itself holds of its content. An ALERT holds whether it is the
CANCELLED alert (R140); a FARE TOTAL carries the oldest unreported closed trip (R57); a JOB EVENT its three items (R76). -/
inductive Content where
  | alert (cancelled : Bool)
  | accept (offer : Nat)
  | jobEvent (kind : JobEventKind) (number : Nat) (time : ClockReading)
  | fareTotal
  | receipt (number : Nat) (status : ReceiptStatus)
  | status (reason : StatusReason)
  | decline (number : Nat) (reason : DeclineReason)
  | driverMessage (localNumber : Nat)
  deriving DecidableEq, Repr

/-- The states of an Uplink Queue entry (R154, R155). -/
inductive EntryState where
  | ready
  | backoff
  | sending
  | awaitingAck
  deriving DecidableEq, Repr

/-- An Uplink Queue entry (R154). `removed` and `refreshed` record what the owner did while the entry was SENDING, and `deferred` a
creation of its kind asked for meanwhile (R154, R155). `carriesFailed` is set while the latest transmission of a STATUS carried the
failed-job-event record (R75). -/
structure Entry where
  content : Content
  seq : Option Nat
  retry : Nat
  backoff : Nat
  state : EntryState
  arrival : Nat
  payload : List Byte
  removed : Bool
  refreshed : Bool
  deferred : Option Content
  carriesFailed : Bool
  deriving DecidableEq, Repr

/-- The link state (R149, R150). -/
inductive LinkState where
  | up
  | lost
  | slotTooShort
  deriving DecidableEq, Repr

/-- The slot plan of the current cycle (R147) with the drawn contention slot (R157) and how much of it has passed. -/
structure Plan where
  headEnd : Nat
  slots : Nat
  ts : Nat
  tl : Nat
  grants : List Nat
  drawn : Nat
  contentionDone : Bool
  nextReserved : Nat
  deriving DecidableEq, Repr

/-- What a transmission carries (R160, R163). -/
inductive TxKind where
  | entry (arrival : Nat)
  | reservationRequest
  | blind
  deriving DecidableEq, Repr

/-- A transmission in progress: its frame from the sync word to the CRC, the instant KEY was asserted and the instant KEY is
released (R160, R163). -/
structure Transmission where
  kind : TxKind
  frame : List Byte
  start : Nat
  ends : Nat
  deriving DecidableEq, Repr

/-- The position fix (R153). -/
structure Fix where
  latitude : Int
  longitude : Int
  instant : Nat
  deriving DecidableEq, Repr

/-- The Radio Link (09). -/
structure Radio where
  queue : List Entry
  nextArrival : Nat
  link : LinkState
  linkDue : Option Nat
  lastCycle : Option Nat
  plan : Option Plan
  grantedNow : Bool
  grantedBefore : Bool
  nextSeq : Nat
  levels : Levels
  fix : Option Fix
  tx : Option Transmission
  blindWaiting : List (List Byte)
  blankedUntil : Option Nat
  deriving DecidableEq, Repr

/-! ## Ports, settings and the Fault Log (10, 12) -/

/-- The result codes, in the order of R168. -/
inductive Result where
  | ok
  | held
  | refusedState
  | badValue
  | full
  | queueFull
  | notFound
  | tooLate
  | onePending
  | incomplete
  | checkMismatch
  | noTariff
  | noIdentity
  | jobHeld
  | notReady
  | badFrame
  | notPermitted
  deriving DecidableEq, Repr

/-- The reply buffer (R167). -/
inductive ReplyBuffer where
  | empty
  | pending (code : Nat)
  | held (code : Nat) (result : Result) (data : List Byte)
  deriving DecidableEq, Repr

/-- One port (R167, R169). The notice set and the enable set are held in the byte form of R177. `answer` is what the port last drove on
data out: the answer of an immediate request, or the idle byte of a command request (R165, R177). -/
structure PortState where
  buffer : ReplyBuffer
  notices : BitVec 8
  enabled : BitVec 8
  answer : List Byte
  deriving DecidableEq, Repr

/-- The sensitivities of an alarm line (R123). -/
inductive Sensitivity where
  | falling
  | rising
  | both
  | lowHeld
  deriving DecidableEq, Repr

/-- A beacon set of the installation settings: mark count, mark spacing and space (R135, 10.5). -/
structure BeaconSetting where
  count : Nat
  spacing : Nat
  space : Nat
  deriving DecidableEq, Repr

/-- The installation settings (10.5), K among them (R36). -/
structure Settings where
  cab : Nat
  fleet : Nat
  k : Nat
  airRate : Nat
  keyLead : Nat
  statusInterval : Nat
  alarmVisible : Bool
  urgent : BeaconSetting
  sustained : BeaconSetting
  sens0 : Sensitivity
  sens1 : Sensitivity
  deriving DecidableEq, Repr

/-- The kinds of Fault Log entry, in the order of R180. -/
inductive FaultKind where
  | retainedLost
  | tariffCheckFailed
  | clockNotSet
  | powerInterrupted
  | speedImplausible
  | alarmLineStuck
  deriving DecidableEq, Repr

/-- An entry of the Fault Log (R180). -/
structure FaultEntry where
  kind : FaultKind
  time : ClockReading
  tripActive : Bool
  deriving DecidableEq, Repr

/-- Whether the part is supplied and out of reset (R178). -/
inductive Power where
  | up
  | down
  deriving DecidableEq, Repr

/-- A request that a port has handed to its owner and that is not yet taken (R166): a command, or a SET INSTALLATION whose item is none of the
eight, which has no required length and so reaches its owner too (R173, R177). -/
inductive Handed where
  | command (i : Instr)
  | unknownItem
  deriving DecidableEq, Repr

/-! ## The whole -/

/-- The state of the part. `pending`, `now`, `draws` and `handed` are the model's own (INVENTORY.md); `handed` lists the requests that a port has
handed to their owners and that are not yet taken (R166, R167). `domainCheck` is the stored check value of the Retained Domain (R178). -/
structure State where
  pending : List Instr
  power : Power
  now : Nat
  draws : Nat
  domainCheck : Check
  handed : List (Port × Handed)
  dist : Distance
  evalDue : Option Nat
  tariff : TariffStore
  trip : Option Trip
  resumeDue : Option Nat
  closed : List ClosedTrip
  totals : Totals
  duty : DutyUnit
  pool : List Block
  offers : OfferTable
  messages : MessageStore
  alarm : AlarmUnit
  radio : Radio
  meter : PortState
  terminal : PortState
  settings : Settings
  faults : List FaultEntry
  deriving DecidableEq, Repr

/-- Why a machine could stop with a fault. The part has no such reason: a request that cannot be taken is answered with a result code
(R168), a frame that cannot be taken is dropped (R143), and the manual's faults are entries of the Fault Log (R180). -/
inductive Fault where
  deriving DecidableEq, Repr

/-- Why a command could have no meaning. -/
inductive Refusal where
  /-- Raised by an arm of `exec` whose command has no meaning yet. Safe. No arm raises it. -/
  | notModelled (mnemonic : String)
  deriving DecidableEq, Repr

/-! ## Values at the start -/

/-- The clock unset: Monday 00:00:00 (R32). -/
def ClockReading.unset : ClockReading := ⟨false, 1, 0, 0, 0⟩

/-- The staged place with no part received (R26). -/
def Staged.empty : Staged := ⟨.none, .none, .none, .none⟩

/-- The Tariff Store after a cold start (02 section 2.8). -/
def TariffStore.cold : TariffStore := ⟨.none, .none, Staged.empty, ClockReading.unset, false⟩

/-- Totalizers after a cold start (R60). -/
def Totals.zero : Totals := ⟨0, 0, 0, 0, 0, 0, 0, 0⟩

/-- The Duty Unit after a start that finds no trip (R62). -/
def DutyUnit.reset : DutyUnit := ⟨.offDuty, false, .notTracked, none, none, none, none, none, none⟩

/-- The pool with every block free (R86). -/
def poolFree : List Block := List.replicate Config.poolBlocks ⟨none, []⟩

/-- The Offer Table after a start (R88). -/
def OfferTable.reset : OfferTable := ⟨[], [], .single, 1⟩

/-- The Message Store after a start (R109, R110, R117). -/
def MessageStore.reset : MessageStore := ⟨[], [], [], 1⟩

/-- The emergency record after a cold start (R126). -/
def EmergencyRecord.cold : EmergencyRecord := ⟨.normal, 0, none, false, .urgent, none, 0, false⟩

/-- A line after a start: unarmed, not stuck, its level not yet known (R123, R124). -/
def LineState.reset : LineState := ⟨none, false, false⟩

/-- The Alarm Unit after a start that finds the given record and no emergency (R126). -/
def AlarmUnit.reset (r : EmergencyRecord) : AlarmUnit := ⟨r, none, none, none, false, LineState.reset, LineState.reset⟩

/-- The default levels (R151). -/
def Levels.default : Levels := ⟨3, 3, 2, 2, 1, 1, 1⟩

/-- The levels during an emergency (R129). -/
def Levels.zero : Levels := ⟨0, 0, 0, 0, 0, 0, 0⟩

/-- The Radio Link after a start (R164), with no blanking left of a transmission that the start cut off (log 31). -/
def Radio.reset : Radio :=
  { queue := [], nextArrival := 1, link := .lost, linkDue := none, lastCycle := none, plan := none, grantedNow := false,
    grantedBefore := false, nextSeq := 0, levels := Levels.default, fix := none, tx := none, blindWaiting := [],
    blankedUntil := none }

/-- A port after a start, with the given kinds of notice (R171, R177). -/
def PortState.reset (kinds : BitVec 8) : PortState := ⟨.empty, 0, kinds, []⟩

/-- The notice kinds of the Meter Port: bits 0 to 5 (R177). -/
def meterKinds : BitVec 8 := 0x3F

/-- The notice kinds of the Terminal Port: bits 0 to 7 (R177). -/
def terminalKinds : BitVec 8 := 0xFF

/-- The installation settings after a cold start (10.5). -/
def Settings.cold : Settings :=
  { cab := 0, fleet := 0, k := 0, airRate := 4800, keyLead := 30, statusInterval := 120, alarmVisible := false,
    urgent := ⟨3, 4, 20⟩, sustained := ⟨1, 4, 60⟩, sens0 := .lowHeld, sens1 := .lowHeld }

/-- The part right after a cold start (R178, R179): every retained item at its cold value, every other item at its reset value, and the
one Fault Log entry RETAINED LOST with its notice FAULT pending. The values of `now`, `draws` and the two arrival counters are log 7, and the
check value is the one of the cold contents (R178; log 6). -/
def State.reset : State :=
  { pending := [], power := .up, now := 0, draws := 0, domainCheck := 0x97A3, handed := [],
    dist := ⟨0, 0⟩, evalDue := none, tariff := TariffStore.cold, trip := none, resumeDue := none, closed := [],
    totals := Totals.zero, duty := DutyUnit.reset, pool := poolFree, offers := OfferTable.reset,
    messages := MessageStore.reset, alarm := AlarmUnit.reset EmergencyRecord.cold, radio := Radio.reset,
    meter := { PortState.reset meterKinds with notices := 0x20 }, terminal := PortState.reset terminalKinds,
    settings := Settings.cold, faults := [⟨.retainedLost, ClockReading.unset, false⟩] }

end Sys2Proof.Machine
end

