-- ==== Sys2Proof/Machine/Operands.lean ====
section
/-! DEFINITION. The forms in which values are carried (11): numbers, packed fields, flags, absent values, clock readings, texts, the CRC,
and the codes of states, kinds and reasons. -/

namespace Sys2Proof.Machine

open Sys2Proof

/-! ## Numbers and packed fields (R175) -/

/-- A number in n bytes, most significant byte first (R175). -/
def natBytes : Nat → Nat → List Byte
  | 0, _ => []
  | n + 1, v => BitVec.ofNat 8 (v / 256 ^ n) :: natBytes n v

/-- The number that bytes spell, most significant byte first (R175). -/
def bytesNat (bs : List Byte) : Nat := bs.foldl (fun acc b => acc * 256 + b.toNat) 0

/-- A packed group: fields (width in bits, value) filled from the most significant bit (R175), as total width and number. -/
def packNat (fields : List (Nat × Nat)) : Nat × Nat :=
  fields.foldl (fun acc f => (acc.1 + f.1, acc.2 * 2 ^ f.1 + f.2 % 2 ^ f.1)) (0, 0)

/-- A packed group as bytes (R175); its widths add up to whole bytes. -/
def packBytes (fields : List (Nat × Nat)) : List Byte :=
  natBytes ((packNat fields).1 / 8) (packNat fields).2

/-- A signed value in two's complement in w bits, as the number those bits spell (R175). -/
def signedField (w : Nat) (v : Int) : Nat := (BitVec.ofInt w v).toNat

/-- The signed value that four bytes spell (R175, SET POSITION). -/
def bytesInt32 (bs : List Byte) : Int := (BitVec.ofNat 32 (bytesNat bs)).toInt

/-- A flag as a byte, 0 or 1 (R177). -/
def flagByte (b : Bool) : List Byte := natBytes 1 b.toNat

/-- All ones of n bytes: "absent" of a field whose range includes 0 (R175). -/
def allOnes (n : Nat) : Nat := 256 ^ n - 1

/-- A field of n bytes whose range includes 0, or absent (R175). -/
def optFrom0 (n : Nat) (v : Option Nat) : List Byte := natBytes n (v.getD (allOnes n))

/-- A field of n bytes whose range starts at 1, or absent (R175). -/
def optFrom1 (n : Nat) (v : Option Nat) : List Byte := natBytes n (v.getD 0)

/-- A text: a count of characters, then one byte for each (R175). -/
def textBytes (t : List Byte) : List Byte := natBytes 1 t.length ++ t

/-! ## Clock readings (R175) -/

/-- The 21 bits of a clock reading (R175). -/
def clockNat (c : ClockReading) : Nat :=
  (packNat [(1, c.isSet.toNat), (3, c.day), (5, c.hour), (6, c.minute), (6, c.second)]).2

/-- A clock reading standing alone: 3 bytes led by 3 zero bits (R175). -/
def clockBytes (c : ClockReading) : List Byte := natBytes 3 (clockNat c)

/-- A clock reading or its absence, all ones of its 21 bits (R175; log 13). -/
def optClockBytes (c : Option ClockReading) : List Byte := natBytes 3 ((c.map clockNat).getD (2 ^ 21 - 1))

/-! ## The CRC (R175) -/

/-- One bit of the CRC: shift, and subtract the generator x^16 + x^12 + x^5 + 1 when a one falls out (R175). -/
def crcShift (r : Check) : Check := if r.msb then (r <<< 1) ^^^ 0x1021 else r <<< 1

/-- One byte entering the CRC register, most significant bit first (R175). -/
def crcByte (r : Check) (b : Byte) : Check := Nat.repeat crcShift 8 (r ^^^ (b.setWidth 16 <<< 8))

/-- The CRC of the part: register at all ones, no final inversion (R175). -/
def crc16 (bs : List Byte) : Check := bs.foldl crcByte 0xFFFF

/-! ## Codes: the position in the list of the owning rule, counting from 0 (R175) -/

/-- The code of a trip state: IDLE 0, RUNNING 1, STOPPED 2 (R175). -/
def tripCode : Option Trip → Nat
  | none => 0
  | some t => match t.phase with
    | .running => 1
    | .stopped _ _ => 2

/-- AUTO 0, FIXED 1 (R177). -/
def modeCode : BandMode → Nat
  | .auto => 0
  | .fixed => 1

/-- The duty states in the order of R62. -/
def dutyCode : DutyState → Nat
  | .offDuty => 0
  | .vacant => 1
  | .assigned => 2
  | .hired => 3
  | .clearing => 4

/-- Terminal presence in the order of R77, for READ STATUS. -/
def presenceCode : Presence → Nat
  | .present => 0
  | .absent => 1
  | .notTracked => 2

/-- Terminal presence in the STATUS payload: NOT TRACKED 0, PRESENT 1, ABSENT 2 (R176). -/
def presenceAirCode : Presence → Nat
  | .notTracked => 0
  | .present => 1
  | .absent => 2

/-- The kinds of JOB EVENT: NO SHOW 0, RELEASE 1 (R176). -/
def jobEventCode : JobEventKind → Nat
  | .noShow => 0
  | .release => 1

/-- The reasons of a DECLINE (R176). -/
def declineCode : DeclineReason → Nat
  | .driver => 0
  | .otherAccepted => 1
  | .busy => 2
  | .unavailable => 3
  | .terminalAbsent => 4
  | .notSignedOn => 5
  | .tableFull => 6

/-- The offer states in the order of R87. -/
def offerStateCode : OfferState → Nat
  | .offered _ => 0
  | .accepting _ => 1
  | .awaitingAward _ => 2
  | .declined _ => 3
  | .expired => 4
  | .lost => 5
  | .withdrawn => 6
  | .abandoned => 7

/-- DIRECTED 0, ZONE 1 (R176). -/
def destCode : DestKind → Nat
  | .directed => 0
  | .zone => 1

/-- The message classes in the order of R109. -/
def classCode : MessageClass → Nat
  | .info => 0
  | .replyRequired => 1
  | .priority => 2
  | .broadcast => 3

/-- The class that a code names, if one of the four (R111). -/
def classOf : Nat → Option MessageClass
  | 0 => some .info
  | 1 => some .replyRequired
  | 2 => some .priority
  | 3 => some .broadcast
  | _ => none

/-- The states of an outbound entry in the order of R117. -/
def outboundCode : OutboundState → Nat
  | .waiting => 0
  | .queued => 1
  | .delivered => 2
  | .failed => 3

/-- NORMAL 0, ALERTING 1, SEEN 2 (R126, R176). -/
def emergencyCode : EmergencyState → Nat
  | .normal => 0
  | .alerting => 1
  | .seen => 2

/-- URGENT 0, SUSTAINED 1 (R126). -/
def beaconSetCode : BeaconSet → Nat
  | .urgent => 0
  | .sustained => 1

/-- MARK 0, SPACE 1 (R126). -/
def phaseCode : BeaconPhase → Nat
  | .mark => 0
  | .space => 1

/-- The reasons of a STATUS: SIGN ON 1 to JOB EVENT FAILED 8 (R176). -/
def statusReasonCode : StatusReason → Nat
  | .signOn => 1
  | .signOff => 2
  | .duty => 3
  | .job => 4
  | .presence => 5
  | .interval => 6
  | .poll => 7
  | .jobEventFailed => 8

/-- STORED 0, FULL 1, READ 2 (R176). -/
def receiptCode : ReceiptStatus → Nat
  | .stored => 0
  | .full => 1
  | .read => 2

/-- The link states in the order of R149: UP 0, LOST 1, SLOT TOO SHORT 2. -/
def linkCode : LinkState → Nat
  | .up => 0
  | .lost => 1
  | .slotTooShort => 2

/-- The sensitivities in the order of R123. -/
def sensitivityCode : Sensitivity → Nat
  | .falling => 0
  | .rising => 1
  | .both => 2
  | .lowHeld => 3

/-- The sensitivity that a code names, if one of the four (R173). -/
def sensitivityOf : Nat → Option Sensitivity
  | 0 => some .falling
  | 1 => some .rising
  | 2 => some .both
  | 3 => some .lowHeld
  | _ => none

/-- The kinds of fault in the order of R180. -/
def faultCode : FaultKind → Nat
  | .retainedLost => 0
  | .tariffCheckFailed => 1
  | .clockNotSet => 2
  | .powerInterrupted => 3
  | .speedImplausible => 4
  | .alarmLineStuck => 5

/-- The result codes numbered from 0 in the order of R168 (R177). -/
def resultCode : Result → Nat
  | .ok => 0
  | .held => 1
  | .refusedState => 2
  | .badValue => 3
  | .full => 4
  | .queueFull => 5
  | .notFound => 6
  | .tooLate => 7
  | .onePending => 8
  | .incomplete => 9
  | .checkMismatch => 10
  | .noTariff => 11
  | .noIdentity => 12
  | .jobHeld => 13
  | .notReady => 14
  | .badFrame => 15
  | .notPermitted => 16

/-- The kind of a queue entry (R151). -/
def contentKind : Content → Kind
  | .alert _ => .alert
  | .accept _ => .accept
  | .jobEvent _ _ _ => .jobEvent
  | .fareTotal => .fareTotal
  | .receipt _ _ => .receipt
  | .status _ => .status
  | .decline _ _ => .decline
  | .driverMessage _ => .driverMessage

/-- The kind code of an uplink frame (R176), which is also the rank of the kind (R151). -/
def kindCode : Kind → Nat
  | .alert => 1
  | .accept => 2
  | .jobEvent => 3
  | .fareTotal => 4
  | .receipt => 5
  | .status => 6
  | .decline => 7
  | .driverMessage => 8

/-- The kinds that SET PRIORITY may name, by their uplink kind codes (R152, R177). -/
def levelKindOf : Nat → Option Kind
  | 2 => some .accept
  | 3 => some .jobEvent
  | 4 => some .fareTotal
  | 5 => some .receipt
  | 6 => some .status
  | 7 => some .decline
  | 8 => some .driverMessage
  | _ => none

/-! ## Operands brought to a bound -/

/-- A value brought to the nearest bound of lo to hi (00 section 5.5). -/
def clamp (lo hi v : Nat) : Nat := max lo (min v hi)

/-- OK when no value was moved, HELD when one was (R168). -/
def heldIf (moved : Bool) : Result := if moved then .held else .ok

end Sys2Proof.Machine
end

