-- ==== Sys2Proof/WellFormed.lean ====
section
/-! DEFINITION. When a command can be written at all: each operand fits the field that carries it (R175, R176,
R177). Whether a value that fits is permitted is judged by the owner of the command, not here. -/

namespace Sys2Proof

/-- A number that fits n bytes. -/
def fitsBytes (n v : Nat) : Bool := decide (v < 256 ^ n)

/-- An address that a frame passed by the Air Framer can hold: a cab number of 12 bits other than 0, ALL, or a zone from
1 to 999 (R143, R176). -/
def Address.wellFormed : Address → Bool
  | .cab n => decide (1 ≤ n ∧ n ≤ 4095)
  | .all => true
  | .zone z => decide (1 ≤ z ∧ z ≤ 999)

/-- The fields of a CYCLE HEAD fit its layout (R176): the whole payload fits 127 bytes. -/
def HeadFields.wellFormed (h : HeadFields) : Bool :=
  fitsBytes 1 h.cycle && fitsBytes 1 h.slots && fitsBytes 2 h.ts && fitsBytes 2 h.tl &&
  h.reservations.all (fitsBytes 2) && h.acks.all (fun p => decide (p.1 < 4096 ∧ p.2 < 16)) &&
  decide (8 + 2 * h.reservations.length + 2 * h.acks.length ≤ 127)

/-- The fields of an OFFER fit its layout, with at most 64 characters of text (R143, R176). -/
def OfferFields.wellFormed (o : OfferFields) : Bool :=
  fitsBytes 2 o.number && fitsBytes 2 o.zone && fitsBytes 3 o.estimate && fitsBytes 1 o.deadline &&
  decide (o.text.length ≤ 64)

/-- The length that LOAD TARIFF PART requires of the content after the part number (R177, 11.4). A part number outside 0 to 3
requires none. -/
def tariffContentLength (part : Nat) (content : List Byte) : Bool :=
  match part with
  | 0 => decide (content.length = 32)
  | 1 => decide (content.length = 30)
  | 2 => match content with
    | n :: rest => decide (rest.length = 4 * n.toNat)
    | [] => false
  | 3 => match content with
    | n :: rest => decide (rest.length = 4 * n.toNat)
    | [] => false
  | _ => true

/-- The command can be carried by its frame, pin or timer. -/
def Instr.wellFormed : Instr → Bool
  | .flagDown m n => fitsBytes 1 m && fitsBytes 1 n
  | .addExtra n => fitsBytes 1 n
  | .readClosed n => fitsBytes 1 n
  | .loadTariffPart p c => fitsBytes 1 p && tariffContentLength p c && decide (c.length ≤ 254)
  | .commitTariff v => fitsBytes 2 v
  | .setClock d h m s => fitsBytes 1 d && fitsBytes 1 h && fitsBytes 1 m && fitsBytes 1 s
  | .calibrate k => fitsBytes 2 k
  | .setIdentity c f => fitsBytes 2 c && fitsBytes 1 f
  | .setAirRate r => fitsBytes 2 r
  | .setKeyLead v => fitsBytes 1 v
  | .setStatusInterval v => fitsBytes 2 v
  | .setAlarmVisible v => fitsBytes 1 v
  | .setUrgentSet c s p => fitsBytes 1 c && fitsBytes 1 s && fitsBytes 2 p
  | .setSustainedSet c s p => fitsBytes 1 c && fitsBytes 1 s && fitsBytes 2 p
  | .setSensitivity _ v => fitsBytes 1 v
  | .setNotices _ e => fitsBytes 1 e
  | .soonClear m => fitsBytes 1 m
  | .readJob n => fitsBytes 1 n
  | .setZones zs => zs.all (fitsBytes 2) && decide (zs.length ≤ 127)
  | .setOfferMode v => fitsBytes 1 v
  | .readOffer n => fitsBytes 1 n
  | .accept n => fitsBytes 2 n
  | .decline n => fitsBytes 2 n
  | .dismiss n => fitsBytes 2 n
  | .readMessage n => fitsBytes 1 n
  | .markRead n => fitsBytes 2 n
  | .delete n => fitsBytes 2 n
  | .reply n c t => fitsBytes 2 n && fitsBytes 1 c && decide (t.length ≤ 251)
  | .sendMessage c t => fitsBytes 1 c && decide (t.length ≤ 253)
  | .readOutbound n => fitsBytes 1 n
  | .dismissOutbound n => fitsBytes 1 n
  | .setPosition a b => decide (-2147483648 ≤ a ∧ a < 2147483648 ∧ -2147483648 ≤ b ∧ b < 2147483648)
  | .setPriority k l => fitsBytes 1 k && fitsBytes 1 l
  | .airFrameDropped _ _ => true
  | .cycleHead a h => a.wellFormed && h.wellFormed
  | .offer a o => a.wellFormed && o.wellFormed
  | .award a n => a.wellFormed && fitsBytes 2 n
  | .lost a n => a.wellFormed && fitsBytes 2 n
  | .withdraw a n => a.wellFormed && fitsBytes 2 n
  | .jobCancel a n => a.wellFormed && fitsBytes 2 n
  | .poll a => a.wellFormed
  | .message a n c t => a.wellFormed && fitsBytes 2 n && fitsBytes 1 c && decide (t.length ≤ 123)
  | .alertSeen a => a.wellFormed
  | .standDown a => a.wellFormed
  | .beaconHold a n => a.wellFormed && fitsBytes 1 n
  | .alarmLineLevel a b => a.isSome || b.isSome
  | .deadlineExpiry n => fitsBytes 2 n
  | .awardTimerExpiry n => fitsBytes 2 n
  | .distPulse => true
  | .evaluation => true
  | .stop => true
  | .resume => true
  | .clear => true
  | .readTrip _ => true
  | .readTotals => true
  | .readTariffCheck => true
  | .readClock => true
  | .readInstallation => true
  | .readEmergency => true
  | .readFaults => true
  | .clearFaults => true
  | .readNotices _ => true
  | .readReply _ => true
  | .signOn => true
  | .signOff => true
  | .cancelClear => true
  | .noShow => true
  | .readPriorities => true
  | .readStatus => true
  | .alarmCancel => true
  | .backoffEnd _ => true
  | .retryLimitReached _ => true
  | .linkLost => true
  | .contentionSlot => true
  | .reservedSlot _ => true
  | .transmissionEnd => true
  | .lineArmed _ _ => true
  | .alarmLineStuck _ => true
  | .cancelWindowExpiry => true
  | .beaconCycleStart => true
  | .beaconBurst => true
  | .blindTransmissionEnd => true
  | .resumeWindowExpiry => true
  | .statusIntervalExpiry => true
  | .presenceTimerExpiry => true
  | .clockTick => true
  | .vmainLossOrReset _ => true
  | .start => true
  | .requestFrameReceived _ _ => true

end Sys2Proof
end

