-- ==== Sys2Proof/Decode.lean ====
section
/-! DEFINITION. Reading commands from the forms that carry them: a table word (the table gives no bits), a port request frame (R165, R166,
R177) and an air frame (R143, R176). -/

namespace Sys2Proof

open Sys2Proof.Machine

/-- The command that a word spells by the bits of spec/opcode_table.json. No row of the table gives bits, so no word spells one
(log 23). -/
def decodeTableWord (nbits w : Nat) : Option Instr :=
  match nbits, w with
  | _, _ => none

/-! ## Port request frames (R177) -/

/-- The command code of a request (R177). Rows that are no request have none; 0 stands for that and is no code of the table. -/
def commandCode : Instr → Nat
  | .readReply _ => 0x01
  | .readNotices _ => 0x02
  | .setNotices _ _ => 0x03
  | .readTrip _ => 0x04
  | .flagDown _ _ => 0x10
  | .stop => 0x11
  | .resume => 0x12
  | .clear => 0x13
  | .addExtra _ => 0x14
  | .readClosed _ => 0x15
  | .readTotals => 0x16
  | .loadTariffPart _ _ => 0x17
  | .commitTariff _ => 0x18
  | .readTariffCheck => 0x19
  | .setClock _ _ _ _ => 0x1A
  | .readClock => 0x1B
  | .calibrate _ => 0x1C
  | .setIdentity _ _ => 0x1D
  | .setAirRate _ => 0x1E
  | .setKeyLead _ => 0x1E
  | .setStatusInterval _ => 0x1E
  | .setAlarmVisible _ => 0x1E
  | .setUrgentSet _ _ _ => 0x1E
  | .setSustainedSet _ _ _ => 0x1E
  | .setSensitivity _ _ => 0x1E
  | .readInstallation => 0x1F
  | .readEmergency => 0x20
  | .readFaults => 0x21
  | .clearFaults => 0x22
  | .signOn => 0x40
  | .signOff => 0x41
  | .soonClear _ => 0x42
  | .cancelClear => 0x43
  | .noShow => 0x44
  | .setZones _ => 0x45
  | .setOfferMode _ => 0x46
  | .readOffer _ => 0x47
  | .accept _ => 0x48
  | .decline _ => 0x49
  | .dismiss _ => 0x4A
  | .readJob _ => 0x4B
  | .readMessage _ => 0x4C
  | .markRead _ => 0x4D
  | .delete _ => 0x4E
  | .reply _ _ _ => 0x4F
  | .sendMessage _ _ => 0x50
  | .readOutbound _ => 0x51
  | .dismissOutbound _ => 0x52
  | .setPosition _ _ => 0x53
  | .setPriority _ _ => 0x54
  | .readPriorities => 0x55
  | .readStatus => 0x56
  | .alarmCancel => 0x57
  | _ => 0

/-- Whether a command code belongs to a port's set (R177, 10.4). -/
def codeOnPort (p : Port) (code : Nat) : Bool :=
  decide (1 ≤ code ∧ code ≤ 4) ||
  (match p with
   | .meter => decide (0x10 ≤ code ∧ code ≤ 0x22)
   | .terminal => decide (0x40 ≤ code ∧ code ≤ 0x57))

/-- The other port. -/
def otherPort : Port → Port
  | .meter => .terminal
  | .terminal => .meter

/-- Bytes read two by two as numbers (SET ZONES). -/
def bytePairs : List Byte → List Nat
  | a :: b :: rest => bytesNat [a, b] :: bytePairs rest
  | _ => []

/-- What the checks of R166 make of a command request. `badItem` is a SET INSTALLATION whose item is none of the eight, which R177 lets reach
its owner at any length, to be refused BAD VALUE there (R173). -/
inductive RequestCheck where
  | badFrame
  | notPermitted
  | take (i : Instr)
  | badItem
  deriving DecidableEq, Repr

/-- The command that a command code and its arguments spell on a port, where the length is the one that the layout requires (R177). A LOAD TARIFF
PART or a SET INSTALLATION without any argument byte has no first byte to require a length by, and is of a wrong length (log 34). -/
def decodeArgs (p : Port) (code : Nat) (args : List Byte) : Option RequestCheck :=
  match code with
  | 0x03 => match args with
    | [e] => some (.take (.setNotices p e.toNat))
    | _ => none
  | 0x04 => if args = [] then some (.take (.readTrip p)) else none
  | 0x10 => match args with
    | [m, n] => some (.take (.flagDown m.toNat n.toNat))
    | _ => none
  | 0x11 => if args = [] then some (.take .stop) else none
  | 0x12 => if args = [] then some (.take .resume) else none
  | 0x13 => if args = [] then some (.take .clear) else none
  | 0x14 => match args with
    | [n] => some (.take (.addExtra n.toNat))
    | _ => none
  | 0x15 => match args with
    | [n] => some (.take (.readClosed n.toNat))
    | _ => none
  | 0x16 => if args = [] then some (.take .readTotals) else none
  | 0x17 => match args with
    | part :: content => if tariffContentLength part.toNat content then some (.take (.loadTariffPart part.toNat content)) else none
    | [] => none
  | 0x18 => match args with
    | [a, b] => some (.take (.commitTariff (bytesNat [a, b])))
    | _ => none
  | 0x19 => if args = [] then some (.take .readTariffCheck) else none
  | 0x1A => match args with
    | [d, h, m, s] => some (.take (.setClock d.toNat h.toNat m.toNat s.toNat))
    | _ => none
  | 0x1B => if args = [] then some (.take .readClock) else none
  | 0x1C => match args with
    | [a, b] => some (.take (.calibrate (bytesNat [a, b])))
    | _ => none
  | 0x1D => match args with
    | [a, b, f] => some (.take (.setIdentity (bytesNat [a, b]) f.toNat))
    | _ => none
  | 0x1E => match args with
    | item :: values => match item.toNat, values with
      | 0, [a, b] => some (.take (.setAirRate (bytesNat [a, b])))
      | 1, [a] => some (.take (.setKeyLead a.toNat))
      | 2, [a, b] => some (.take (.setStatusInterval (bytesNat [a, b])))
      | 3, [a] => some (.take (.setAlarmVisible a.toNat))
      | 4, [c, s, a, b] => some (.take (.setUrgentSet c.toNat s.toNat (bytesNat [a, b])))
      | 5, [c, s, a, b] => some (.take (.setSustainedSet c.toNat s.toNat (bytesNat [a, b])))
      | 6, [a] => some (.take (.setSensitivity .alm0 a.toNat))
      | 7, [a] => some (.take (.setSensitivity .alm1 a.toNat))
      | n, _ => if 7 < n then some .badItem else none
    | [] => none
  | 0x1F => if args = [] then some (.take .readInstallation) else none
  | 0x20 => if args = [] then some (.take .readEmergency) else none
  | 0x21 => if args = [] then some (.take .readFaults) else none
  | 0x22 => if args = [] then some (.take .clearFaults) else none
  | 0x40 => if args = [] then some (.take .signOn) else none
  | 0x41 => if args = [] then some (.take .signOff) else none
  | 0x42 => match args with
    | [m] => some (.take (.soonClear m.toNat))
    | _ => none
  | 0x43 => if args = [] then some (.take .cancelClear) else none
  | 0x44 => if args = [] then some (.take .noShow) else none
  | 0x45 => match args with
    | z :: zones => if zones.length = 2 * z.toNat then some (.take (.setZones (bytePairs zones))) else none
    | [] => none
  | 0x46 => match args with
    | [v] => some (.take (.setOfferMode v.toNat))
    | _ => none
  | 0x47 => match args with
    | [n] => some (.take (.readOffer n.toNat))
    | _ => none
  | 0x48 => match args with
    | [a, b] => some (.take (.accept (bytesNat [a, b])))
    | _ => none
  | 0x49 => match args with
    | [a, b] => some (.take (.decline (bytesNat [a, b])))
    | _ => none
  | 0x4A => match args with
    | [a, b] => some (.take (.dismiss (bytesNat [a, b])))
    | _ => none
  | 0x4B => match args with
    | [v] => some (.take (.readJob v.toNat))
    | _ => none
  | 0x4C => match args with
    | [n] => some (.take (.readMessage n.toNat))
    | _ => none
  | 0x4D => match args with
    | [a, b] => some (.take (.markRead (bytesNat [a, b])))
    | _ => none
  | 0x4E => match args with
    | [a, b] => some (.take (.delete (bytesNat [a, b])))
    | _ => none
  | 0x4F => match args with
    | a :: b :: c :: l :: text => if text.length = l.toNat then some (.take (.reply (bytesNat [a, b]) c.toNat text)) else none
    | _ => none
  | 0x50 => match args with
    | c :: l :: text => if text.length = l.toNat then some (.take (.sendMessage c.toNat text)) else none
    | _ => none
  | 0x51 => match args with
    | [n] => some (.take (.readOutbound n.toNat))
    | _ => none
  | 0x52 => match args with
    | [n] => some (.take (.dismissOutbound n.toNat))
    | _ => none
  | 0x53 => match args with
    | [a, b, c, d, e, f, g, h] => some (.take (.setPosition (bytesInt32 [a, b, c, d]) (bytesInt32 [e, f, g, h])))
    | _ => none
  | 0x54 => match args with
    | [k, l] => some (.take (.setPriority k.toNat l.toNat))
    | _ => none
  | 0x55 => if args = [] then some (.take .readPriorities) else none
  | 0x56 => if args = [] then some (.take .readStatus) else none
  | 0x57 => if args = [] then some (.take .alarmCancel) else none
  | _ => none

/-- The checks of a command request in the order of R166: the code is of either set, the code is of this port's set, the length is the one
required. -/
def checkRequest (p : Port) (code : Nat) (args : List Byte) : RequestCheck :=
  if codeOnPort p code then (decodeArgs p code args).getD .badFrame
  else if codeOnPort (otherPort p) code then .notPermitted
  else .badFrame

/-! ## Air frames (R143, R176) -/

/-- The address of a header: form CAB (number 0 is ALL) or ZONE from 1 to 999; every other is not taken (R143, R176). -/
def decodeAddress (form number : Nat) : Option Address :=
  match form with
  | 0 => some (if number = 0 then .all else .cab number)
  | 1 => if 1 ≤ number ∧ number ≤ 999 then some (.zone number) else none
  | _ => none

/-- Bytes read two by two as (cab number, sequence), the acknowledgement list of a CYCLE HEAD (R176). -/
def ackPairs (bs : List Byte) : List (Nat × Nat) := (bytePairs bs).map (fun v => (v / 16, v % 16))

/-- The payload of a CYCLE HEAD (R176). -/
def decodeHead : List Byte → Option HeadFields
  | cy :: c :: a :: b :: d :: e :: r :: rest =>
    match rest.drop (2 * r.toNat) with
    | n :: acks =>
      if 2 * r.toNat ≤ rest.length ∧ acks.length = 2 * n.toNat then
        some ⟨cy.toNat, c.toNat, bytesNat [a, b], bytesNat [d, e], bytePairs (rest.take (2 * r.toNat)), ackPairs acks⟩
      else none
    | [] => none
  | _ => none

/-- The payload of an OFFER, with a text count of at most 64 (R143, R176). -/
def decodeOffer : List Byte → Option OfferFields
  | n1 :: n2 :: f :: z1 :: z2 :: e1 :: e2 :: e3 :: d :: l :: text =>
    if text.length = l.toNat ∧ l.toNat ≤ 64 then
      some ⟨bytesNat [n1, n2], if f.getLsbD 7 then .zone else .directed, f.getLsbD 6, f.getLsbD 5, bytesNat [z1, z2],
        bytesNat [e1, e2, e3], d.toNat, text⟩
    else none
  | _ => none

/-- The command that a downlink kind and its payload spell, where the payload's length agrees with the layout of the kind (R176). -/
def decodePayload (address : Address) (kind : Nat) (payload : List Byte) : Option Instr :=
  match kind, payload with
  | 1, p => (decodeHead p).map (.cycleHead address)
  | 2, p => (decodeOffer p).map (.offer address)
  | 3, [a, b] => some (.award address (bytesNat [a, b]))
  | 4, [a, b] => some (.lost address (bytesNat [a, b]))
  | 5, [a, b] => some (.withdraw address (bytesNat [a, b]))
  | 6, [a, b] => some (.jobCancel address (bytesNat [a, b]))
  | 7, n1 :: n2 :: c :: l :: text =>
    if text.length = l.toNat then some (.message address (bytesNat [n1, n2]) c.toNat text) else none
  | 8, [] => some (.alertSeen address)
  | 9, [] => some (.standDown address)
  | 10, [n] => some (.beaconHold address n.toNat)
  | 11, [] => some (.poll address)
  | _, _ => none

/-- The Air Framer (R143, R176): the frame that stands in these bytes from the sync word on, if every condition of R143 but the blanking
holds for a cab of the given fleet code. Bytes after the CRC are not part of the frame. -/
def airFramer (fleet : Nat) : List Byte → Option Instr
  | s1 :: s2 :: h1 :: h2 :: h3 :: h4 :: h5 :: rest =>
    let header := bytesNat [h1, h2, h3, h4, h5]
    let len := header % 128
    let payload := rest.take len
    match rest.drop len with
    | c1 :: c2 :: _ =>
      if bytesNat [s1, s2] = 0x9C6B ∧ bytesNat [c1, c2] = (crc16 ([h1, h2, h3, h4, h5] ++ payload)).toNat ∧
          fleet ≠ 0 ∧ header / 2 ^ 32 = fleet then
        (decodeAddress (header / 2 ^ 30 % 4) (header / 2 ^ 18 % 4096)).bind
          (fun address => decodePayload address (header / 2 ^ 14 % 16) payload)
      else none
    | _ => none
  | _ => none

end Sys2Proof
end

