-- ==== Sys2Proof/Machine/Domain.lean ====
section
/-! DEFINITION. The check value of the Retained Domain (R175, R178): what it covers, and how it is brought up to date. The order and the width of the
items under it are the model's (log 6). -/

namespace Sys2Proof.Machine

open Sys2Proof

/-! ## The retained items, as numbers (00 section 3) -/

/-- An item that may be absent. -/
def optionWords {α : Type} (f : α → List Nat) : Option α → List Nat
  | none => [0]
  | some x => 1 :: f x

/-- A list of items. -/
def listWords {α : Type} (f : α → List Nat) (xs : List α) : List Nat := xs.length :: xs.flatMap f

/-- A clock reading held in a record. -/
def clockWords (c : ClockReading) : List Nat := [c.isSet.toNat, c.day, c.hour, c.minute, c.second]

/-- A band (R23). -/
def bandWords (b : Band) : List Nat := [b.f0, b.d0, b.a, b.dstep, b.tstep, (decide (b.mode = .double)).toNat, b.fmin]

/-- An image with the check value it was committed with (R24, R25). -/
def imageWords (i : StoredImage) : List Nat :=
  i.image.version :: bandWords i.image.band1 ++ bandWords i.image.band2 ++ bandWords i.image.band3 ++ bandWords i.image.band4 ++
  listWords (fun e => [e.days.toNat, e.start, e.band]) i.image.schedule ++ listWords (fun x => [x.amount, x.maxCount]) i.image.extras ++
  [i.check.toNat]

/-- The stopped total and the minimum uplift, in STOPPED alone (R38). -/
def phaseWords : TripPhase → List Nat
  | .running => [0]
  | .stopped total uplift => [1, total, uplift]

/-- The trip record (R38). -/
def tripWords (t : Trip) : List Nat :=
  phaseWords t.phase ++ [modeCode t.mode, t.flagDownBand, t.band] ++ optionWords (fun n => [n]) t.pendingBand ++ [t.progress, t.remaining] ++
  clockWords t.flagDownTime ++ [t.f0, t.fare, t.steps, t.distance, t.waiting] ++ listWords (fun x => [x.1, x.2]) t.extras ++
  optionWords (fun j => [j.number, j.cancelled.toNat]) t.job ++ [t.interruptions, t.saturated.toNat, t.speedFault.toNat, t.emergency.toNat]

/-- An entry of the closed-trip list (R51). -/
def closedWords (c : ClosedTrip) : List Nat :=
  c.count :: clockWords c.first ++ clockWords c.last ++ [c.total, c.extras, c.distance] ++ optionWords (fun n => [n]) c.job ++
  [c.reported.toNat, c.pinned.toNat, c.unsent.toNat]

/-- The totalizers (R60). -/
def totalsWords (x : Totals) : List Nat := [x.distance, x.hired, x.trips, x.fare, x.extras, x.steps, x.interruptions, x.reported]

/-- The emergency record (R126). -/
def emergencyWords (r : EmergencyRecord) : List Nat :=
  [emergencyCode r.state, r.presses] ++ optionWords clockWords r.startTime ++ [r.cancelOpen.toNat, beaconSetCode r.beaconSet] ++
  optionWords (fun p => [p.1, phaseCode p.2]) r.position ++ [r.hold, r.pinIntent.toNat]

/-- The identity, K and the other installation settings (10.5, R36). -/
def settingsWords (x : Settings) : List Nat :=
  [x.cab, x.fleet, x.k, x.airRate, x.keyLead, x.statusInterval, x.alarmVisible.toNat, x.urgent.count, x.urgent.spacing, x.urgent.space,
   x.sustained.count, x.sustained.spacing, x.sustained.space, sensitivityCode x.sens0, sensitivityCode x.sens1]

/-- An entry of the Fault Log (R180). -/
def faultWords (f : FaultEntry) : List Nat := faultCode f.kind :: clockWords f.time ++ [f.tripActive.toNat]

/-- Every retained item (00 section 3, R178): of the calendar clock its set flag alone, since its day and time run on by themselves. -/
def domainWords (s : State) : List Nat :=
  optionWords imageWords s.tariff.active ++ optionWords imageWords s.tariff.pending ++
  [s.tariff.clock.isSet.toNat, s.tariff.clockUnsetMark.toNat] ++ settingsWords s.settings ++ optionWords tripWords s.trip ++
  listWords closedWords s.closed ++ totalsWords s.totals ++ emergencyWords s.alarm.record ++ listWords faultWords s.faults

/-! ## The check value (R178) -/

/-- The check value computed over the retained items as they stand, each in four bytes (R175, R178; log 6). -/
def computeDomainCheck (s : State) : Check := crc16 ((domainWords s).flatMap (natBytes 4))

/-- The comparison that decides the kind of a start: the stored check value against the one computed afresh (R178). -/
def domainAgrees (s : State) : Bool := decide (s.domainCheck = computeDomainCheck s)

/-- The update of the check value that goes with every change of a retained item, as one change (R178). -/
def sealDomain (s : State) : State := { s with domainCheck := computeDomainCheck s }

/-- A change of the domain that its check value does not show: what the two values differed by, they differ by still (R31; log 6). -/
def hideDamage (before after : State) : State :=
  { after with domainCheck := before.domainCheck ^^^ computeDomainCheck before ^^^ computeDomainCheck after }

end Sys2Proof.Machine
end

