-- ==== Sys2Proof/Machine/Flags.lean ====
section
/-! DEFINITION. The flags that the part raises towards its masters: the notice sets with their attention lines (R169, R177), the line KEY
(R160), and the marks that are read out of a trip's record. -/

namespace Sys2Proof.Machine

open Sys2Proof

/-! ## Notice kinds, as the bits of R177 -/

/-- Meter Port notice STEP. -/
abbrev noticeStep : BitVec 8 := 0x01
/-- Meter Port notice BAND CHANGED. -/
abbrev noticeBandChanged : BitVec 8 := 0x02
/-- Meter Port notice TARIFF ACTIVE. -/
abbrev noticeTariffActive : BitVec 8 := 0x04
/-- Meter Port notice EMERGENCY. -/
abbrev noticeMeterEmergency : BitVec 8 := 0x08
/-- Meter Port notice POWER INTERRUPTED. -/
abbrev noticePowerInterrupted : BitVec 8 := 0x10
/-- Meter Port notice FAULT. -/
abbrev noticeFault : BitVec 8 := 0x20
/-- Terminal Port notice OFFER. -/
abbrev noticeOffer : BitVec 8 := 0x01
/-- Terminal Port notice JOB. -/
abbrev noticeJob : BitVec 8 := 0x02
/-- Terminal Port notice MESSAGE. -/
abbrev noticeMessage : BitVec 8 := 0x04
/-- Terminal Port notice OUTBOUND. -/
abbrev noticeOutbound : BitVec 8 := 0x08
/-- Terminal Port notice DUTY. -/
abbrev noticeDuty : BitVec 8 := 0x10
/-- Terminal Port notice LINK. -/
abbrev noticeLink : BitVec 8 := 0x20
/-- Terminal Port notice TRIP. -/
abbrev noticeTrip : BitVec 8 := 0x40
/-- Terminal Port notice EMERGENCY. -/
abbrev noticeTerminalEmergency : BitVec 8 := 0x80

/-- Placing notices: the kinds join the set, and a kind already pending stays pending (R169). -/
def PortState.place (p : PortState) (kinds : BitVec 8) : PortState := { p with notices := p.notices ||| kinds }

/-- Placing notices for the Meter Port's master. -/
def noticeMeter (kinds : BitVec 8) (s : State) : State := { s with meter := s.meter.place kinds }

/-- Placing notices for the Terminal Port's master. -/
def noticeTerminal (kinds : BitVec 8) (s : State) : State := { s with terminal := s.terminal.place kinds }

/-- The attention line of a port: asserted while the notice set holds an enabled kind (R169). -/
def PortState.attention (p : PortState) : Bool := p.notices &&& p.enabled != 0

/-- MATTN: released while the part is without VMAIN or held in reset (R169, R178). -/
def mattn (s : State) : Bool := decide (s.power = .up) && s.meter.attention

/-- TATTN: as MATTN, for the Terminal Port. -/
def tattn (s : State) : Bool := decide (s.power = .up) && s.terminal.attention

/-- KEY: asserted exactly while a transmission is in progress (R160, R163). -/
def keyAsserted (s : State) : Bool := s.radio.tx.isSome

/-- The trip state is RUNNING. -/
def tripRunning (s : State) : Bool := decide (tripCode s.trip = 1)

/-- The trip state is STOPPED. -/
def tripStopped (s : State) : Bool := decide (tripCode s.trip = 2)

/-- The trip-active flag of a fault entry: the trip state is RUNNING or STOPPED (R180). -/
def tripActive (s : State) : Bool := s.trip.isSome

/-- The Fare Engine holds the fare: a trip is in progress and no image is active (R22). -/
def fareHeld (s : State) : Bool := s.trip.isSome && s.tariff.active.isNone

/-- The emergency state is not NORMAL. -/
def inEmergency (s : State) : Bool := decide (s.alarm.record.state ≠ .normal)

/-- The notice EMERGENCY: for the Meter Port always, for the Terminal Port while alarm visible is set (R142). -/
def noticeEmergency (s : State) : State :=
  { s with
    meter := s.meter.place noticeMeterEmergency
    terminal := if s.settings.alarmVisible then s.terminal.place noticeTerminalEmergency else s.terminal }

/-- Placing a fault: when the log holds 16 entries the oldest is first removed; the notice FAULT is placed (R180). -/
def placeFault (kind : FaultKind) (active : Bool) (s : State) : State :=
  { s with
    faults := (if s.faults.length < Config.faultMax then s.faults else s.faults.drop (s.faults.length + 1 - Config.faultMax)) ++
      [⟨kind, s.tariff.clock, active⟩]
    meter := s.meter.place noticeFault }

end Sys2Proof.Machine
end

