-- ==== Sys2Proof/Machine/Ops.lean ====
section
/-! DEFINITION. The named operations that the meanings share: the time base, the pool (05), the Uplink Queue as its owners act on it (R154, R155),
the STATUS report (R73), the re-check of offers (R94), terminal presence (R77), the waiting outbound message (R120), and a port's request (R166,
R167). -/

namespace Sys2Proof.Machine

open Sys2Proof

/-- The outcome of a command. -/
abbrev Out := Host.Outcome State Fault Refusal

/-- While VMAIN is absent or RSTN is low, the part takes nothing (R178; log 5). What it does while up is one change with the update of the
Retained Domain's check value (R178). -/
def whenUp (f : State → State) (s : State) : Out := .next (if s.power = .up then sealDomain (f s) else s)

/-! ## The time base -/

/-- An event at a given instant brings the time base to that instant (log 3). -/
def reach (due : Nat) (s : State) : State := { s with now := max s.now due }

/-- The whole seconds remaining to an instant, a part second counted or not as the free value has it (log 9). -/
def secondsLeft (now due : Nat) : Nat :=
  (due - now) / 1000 + if (due - now) % 1000 ≠ 0 ∧ Config.partSecondCounts ((due - now) % 1000) then 1 else 0

/-! ## The Text Block Pool (05) -/

/-- The free count (R79). -/
def freeCount (pool : List Block) : Nat := pool.countP (fun b => b.owner.isNone)

/-- The numbers of the free blocks, rising (R80). -/
def freeNumbers (pool : List Block) : List Nat :=
  (List.range pool.length).filter (fun i => (pool[i]?.map (fun b => b.owner.isNone)).getD false)

/-- Blocks that a text of L characters needs: L divided by 32 and rounded up (R80). -/
def blocksNeeded (length : Nat) : Nat := (length + Config.blockChars - 1) / Config.blockChars

/-- Tagging blocks with their holder and writing the text into them, 32 characters a block (R79, R80). -/
def writeBlocks (h : Holder) : List Nat → List Byte → List Block → List Block
  | [], _, pool => pool
  | n :: ns, text, pool => writeBlocks h ns (text.drop Config.blockChars) (pool.set n ⟨some h, text.take Config.blockChars⟩)

/-- Granting k blocks to a holder: the k lowest-numbered free blocks, in ascending order (R80). -/
def grantBlocks (h : Holder) (k : Nat) (text : List Byte) (pool : List Block) : List Block × List Nat :=
  (writeBlocks h ((freeNumbers pool).take k) text pool, (freeNumbers pool).take k)

/-- A message's request: granted whole while at least 8 blocks stay free, or refused; no block is asked for an empty text (R80, R81). -/
def allocMessage (h : Holder) (text : List Byte) (pool : List Block) : Option (List Block × TextRef) :=
  if blocksNeeded text.length = 0 ∨ blocksNeeded text.length + Config.reserveBlocks ≤ freeCount pool then
    some ((grantBlocks h (blocksNeeded text.length) text pool).1, ⟨(grantBlocks h (blocksNeeded text.length) text pool).2, text.length⟩)
  else none

/-- The blocks an offer's text gets: as many as it needs, or as are free (R82). -/
def offerGrant (length : Nat) (pool : List Block) : Nat := min (blocksNeeded length) (freeCount pool)

/-- The characters of an offer's text that are stored (R82). -/
def offerStored (length : Nat) (pool : List Block) : Nat :=
  if offerGrant length pool = blocksNeeded length then length else Config.blockChars * offerGrant length pool

/-- An offer's request: any free block, the text cut short when they run out; with the truncated mark (R82). -/
def allocOffer (h : Holder) (text : List Byte) (pool : List Block) : List Block × TextRef × Bool :=
  ((grantBlocks h (offerGrant text.length pool) (text.take (offerStored text.length pool)) pool).1,
   ⟨(grantBlocks h (offerGrant text.length pool) (text.take (offerStored text.length pool)) pool).2, offerStored text.length pool⟩,
   decide (offerGrant text.length pool ≠ blocksNeeded text.length))

/-- Releasing blocks: they become free, their tag and text gone (R83). -/
def releaseBlocks : List Nat → List Block → List Block
  | [], pool => pool
  | n :: ns, pool => releaseBlocks ns (pool.set n ⟨none, []⟩)

/-- Handing blocks over: only the tag changes (R84). -/
def retagBlocks (h : Holder) : List Nat → List Block → List Block
  | [], pool => pool
  | n :: ns, pool => retagBlocks h ns (pool.modify n (fun b => { b with owner := some h }))

/-- A holder's text, read through its block list (R79). -/
def readText (pool : List Block) (ref : TextRef) : List Byte :=
  (ref.blocks.flatMap (fun n => (pool[n]?.map Block.chars).getD [])).take ref.length

/-! ## The Uplink Queue as its owners act on it (R154, R155) -/

/-- The kind of an entry. -/
def Entry.kind (e : Entry) : Kind := contentKind e.content

/-- The kinds with a position of their own (R154). -/
def reservedKind : Kind → Bool
  | .alert => true
  | .accept => true
  | .fareTotal => true
  | .status => true
  | .jobEvent => false
  | .receipt => false
  | .decline => false
  | .driverMessage => false

/-- The general positions occupied (R154). -/
def Radio.generalCount (r : Radio) : Nat := r.queue.countP (fun e => !reservedKind e.kind)

/-- A general position is free (R154). -/
def Radio.generalFree (r : Radio) : Bool := decide (r.generalCount < Config.generalMax)

/-- An entry of a kind is held. -/
def Radio.holds (k : Kind) (r : Radio) : Bool := r.queue.any (fun e => decide (e.kind = k))

/-- An entry as it is created: READY, retry count 0, backoff 0 (R154). -/
def newEntry (c : Content) (arrival : Nat) : Entry :=
  { content := c, seq := none, retry := 0, backoff := 0, state := .ready, arrival := arrival, payload := [], removed := false,
    refreshed := false, deferred := none, carriesFailed := false }

/-- Creating an entry at the end of the queue (R154). -/
def Radio.create (c : Content) (r : Radio) : Radio :=
  { r with queue := r.queue ++ [newEntry c r.nextArrival], nextArrival := r.nextArrival + 1 }

/-- Creating an entry that needs a general position, if one is free; otherwise nothing changes (R154). -/
def Radio.createGeneral (c : Content) (r : Radio) : Radio := if r.generalFree then r.create c else r

/-- An entry whose position a new creation of its kind must await: its owner removed it while it is SENDING (R154). -/
def Entry.leaving (e : Entry) : Bool := decide (e.state = .sending) && e.removed

/-- Creating an entry of a reserved kind in its position. A position whose entry is leaving takes the creation when the transmission ends
(R154). -/
def Radio.createReserved (c : Content) (r : Radio) : Radio :=
  if r.holds (contentKind c) then
    { r with queue := r.queue.map (fun e => if e.kind = contentKind c ∧ e.leaving then { e with deferred := some c } else e) }
  else r.create c

/-- An owner's refresh of the entry it holds, with the content given (R155): READY with a fresh sequence to come, or, while SENDING, so once
the transmission has ended. An entry that is leaving keeps the refreshed content as a creation that waits (R154). -/
def Entry.refresh (c : Content) (e : Entry) : Entry :=
  if e.leaving then { e with deferred := some c }
  else if e.state = .sending then { e with content := c, refreshed := true }
  else { e with content := c, seq := none, retry := 0, backoff := 0, state := .ready, carriesFailed := false }

/-- Creating or refreshing the entry of a reserved kind (R73, R138). -/
def Radio.refreshReserved (c : Content) (r : Radio) : Radio :=
  if r.holds (contentKind c) then
    { r with queue := r.queue.map (fun e => if e.kind = contentKind c then e.refresh c else e) }
  else r.create c

/-- An owner's removal of its entry of a reserved kind (R155): at once, or, while SENDING, when the transmission ends. A creation that
waited is dropped with it (R154). -/
def Radio.removeOwned (k : Kind) (r : Radio) : Radio :=
  { r with
    queue := r.queue.filterMap (fun e =>
      if e.kind = k then
        if e.state = .sending then some { e with removed := true, deferred := none } else none
      else some e) }

/-- Whether a DECLINE for an offer number is in the queue (R99). -/
def Radio.hasDecline (n : Nat) (r : Radio) : Bool :=
  r.queue.any (fun e => match e.content with
    | .decline m _ => decide (m = n)
    | _ => false)

/-- Queueing a DECLINE: none when one for the number is held or no general position is free (R99). -/
def Radio.queueDecline (n : Nat) (reason : DeclineReason) (r : Radio) : Radio :=
  if r.hasDecline n then r else r.createGeneral (.decline n reason)

/-- Whether a JOB EVENT RELEASE for a number is in the queue (R104). -/
def Radio.hasRelease (n : Nat) (r : Radio) : Bool :=
  r.queue.any (fun e => match e.content with
    | .jobEvent .release m _ => decide (m = n)
    | _ => false)

/-- Queueing a JOB EVENT RELEASE: none when one for the number is held or no general position is free (R104). -/
def Radio.queueRelease (n : Nat) (time : ClockReading) (r : Radio) : Radio :=
  if r.hasRelease n then r else r.createGeneral (.jobEvent .release n time)

/-- Whether an entry is the RECEIPT of a message number (R114). -/
def Entry.isReceiptOf (n : Nat) (e : Entry) : Bool :=
  match e.content with
  | .receipt m _ => decide (m = n)
  | _ => false

/-- Queueing a RECEIPT (R114): one held with the same status is left as it is, one held with another status takes the new status with its
delivery restarted, and otherwise one is created if a general position is free. -/
def Radio.queueReceipt (n : Nat) (status : ReceiptStatus) (r : Radio) : Radio :=
  if r.queue.any (Entry.isReceiptOf n) then
    { r with
      queue := r.queue.map (fun e => if e.isReceiptOf n ∧ e.content ≠ .receipt n status then e.refresh (.receipt n status) else e) }
  else r.createGeneral (.receipt n status)

/-! ## The oldest waiting outbound message (R120) -/

/-- A freed general position is offered to the Message Store, which queues its oldest WAITING outbound entry (R120, R154; log 20). -/
def queueWaiting (s : State) : State :=
  match s.messages.outbound.find? (fun o => decide (o.state = .waiting)) with
  | none => s
  | some o =>
    if s.radio.generalFree then
      { s with
        radio := s.radio.create (.driverMessage o.localNumber)
        messages := { s.messages with
          outbound := s.messages.outbound.map (fun x => if x.localNumber = o.localNumber then { x with state := .queued } else x) } }
    else s

/-! ## The STATUS report, the re-check of offers, and what the Duty Unit tells of itself -/

/-- Replacing the content of the STATUS entry, which is created if absent, and restarting the status-interval timer while the flag is set
(R73, R74). -/
def refreshStatus (reason : StatusReason) (s : State) : State :=
  { s with
    radio := s.radio.refreshReserved (.status reason)
    duty := { s.duty with
      statusDue := if s.duty.signedOn then some (s.now + s.settings.statusInterval * 1000) else s.duty.statusDue } }

/-- Whether the duty state fits an offer (R91). -/
def offerFits (d : DutyUnit) (stackable : Bool) : Bool :=
  match d.state with
  | .vacant => true
  | .clearing => stackable && d.next.isNone
  | .offDuty => false
  | .assigned => false
  | .hired => false

/-- The first of the first four conditions of R91 that fails, as its reason. -/
def entryReason (s : State) (stackable : Bool) : Option DeclineReason :=
  if s.duty.signedOn = false then some .notSignedOn
  else if s.alarm.record.state ≠ .normal then some .unavailable
  else if s.duty.presence ≠ .present then some .terminalAbsent
  else if offerFits s.duty stackable = false then some .busy
  else none

/-- The reason for which the re-check declines an entry: none unless it is OFFERED and fails a condition (R94). -/
def recheckReason (s : State) (o : Offer) : Option DeclineReason :=
  match o.state with
  | .offered _ => entryReason s o.stackable
  | _ => none

/-- The re-check of R94: each OFFERED entry that no longer fits is declined, oldest first, with a DECLINE queued for it; the notice OFFER is
placed once. -/
def recheck (s : State) : State :=
  { s with
    offers := { s.offers with
      entries := s.offers.entries.map (fun o => match recheckReason s o with
        | some r => { o with state := .declined r }
        | none => o) }
    radio := s.offers.entries.foldl (fun r o => match recheckReason s o with
        | some reason => r.queueDecline o.number reason
        | none => r) s.radio
    terminal := if s.offers.entries.any (fun o => (recheckReason s o).isSome) then s.terminal.place noticeOffer else s.terminal }

/-- What follows a change of the duty state, the signed-on flag or presence: the notice DUTY, the STATUS content replaced with the reason
given, and the Offer Table's re-check (R62, R73, R78, R94). -/
def dutyChanged (reason : StatusReason) (s : State) : State :=
  recheck (refreshStatus reason (noticeTerminal noticeDuty s))

/-- A sign of the terminal (R77): while the flag is set, the presence timer restarts, and an ABSENT presence becomes PRESENT. -/
def terminalSign (s : State) : State :=
  if s.duty.signedOn then
    if s.duty.presence = .absent then
      dutyChanged .presence { s with duty := { s.duty with presence := .present, presenceDue := some (s.now + 30000) } }
    else { s with duty := { s.duty with presenceDue := some (s.now + 30000) } }
  else s

/-- Traffic of a port: a sign of the terminal on the Terminal Port, nothing on the Meter Port (R77, 10.4). -/
def signOf (p : Port) (s : State) : State :=
  match p with
  | .meter => s
  | .terminal => terminalSign s

/-! ## A port's request (R166, R167) -/

/-- The state of a port. -/
def portState (p : Port) (s : State) : PortState :=
  match p with
  | .meter => s.meter
  | .terminal => s.terminal

/-- Replacing the state of a port. -/
def setPort (p : Port) (v : PortState) (s : State) : State :=
  match p with
  | .meter => { s with meter := v }
  | .terminal => { s with terminal := v }

/-- The reply buffer of a port takes a new content. -/
def setBuffer (p : Port) (b : ReplyBuffer) (s : State) : State := setPort p { portState p s with buffer := b } s

/-- What the port drives on data out (R165). -/
def setAnswer (p : Port) (a : List Byte) (s : State) : State := setPort p { portState p s with answer := a } s

/-- The idle byte (R165, R177). -/
def idleByte : Byte := 0x00

/-- During a command request the port drives the idle byte on data out, for each byte clocked (R165, R177; log 25). -/
def driveIdle (p : Port) (s : State) : State := setAnswer p [idleByte] s

/-- A command request frame received complete: the idle byte was driven (R165), and on the Terminal Port it is a sign of the terminal (R77). -/
def frameReceived (p : Port) (s : State) : State := signOf p (driveIdle p s)

/-- A request is handed on and not yet taken: the reply buffer is PENDING (R167). -/
def bufferPending (p : Port) (s : State) : Bool :=
  match (portState p s).buffer with
  | .pending _ => true
  | .empty => false
  | .held _ _ _ => false

/-- What an owner makes of a request: the state after it, the result code and the reply data (R168). -/
abbrev Reply := State × Result × List Byte

/-- A request refused or answered without a change. -/
def answer (r : Result) (data : List Byte) (s : State) : Reply := (s, r, data)

/-- A request answered without data. -/
def done (r : Result) (s : State) : Reply := (s, r, [])

/-- The reply becomes HELD once the owner has taken the request whole (R167). -/
def holdReply (p : Port) (code : Nat) (o : Reply) : State := setBuffer p (.held code o.2.1 o.2.2) o.1

/-- A command of a port can be taken by its owner now (log 4): it is a request already handed on, or a request frame received while no other
request of the port is PENDING (R166). -/
def canTake (p : Port) (i : Instr) (s : State) : Bool := decide ((p, .command i) ∈ s.handed) || !bufferPending p s

/-- The state in which the owner finds the part as it takes a command of a port: a request already handed on is so no longer; one received now has
its frame's own effects (R77, R165). -/
def arrived (p : Port) (i : Instr) (s : State) : State :=
  if (p, .command i) ∈ s.handed then { s with handed := s.handed.erase (p, .command i) } else frameReceived p s

/-- A command of a port (log 4): taken by its owner, its reply then HELD (R167); or, while another request of the port is PENDING, dropped, with
its frame's own effects all the same (R166). -/
def request (p : Port) (i : Instr) (owner : State → Reply) (s : State) : State :=
  if canTake p i s then holdReply p (commandCode i) (owner (arrived p i s)) else frameReceived p s

end Sys2Proof.Machine
end

