-- ==== Sys2Proof/Machine/AirFrames.lean ====
section
/-! DEFINITION. Building uplink frames (R176), the choice of a frame for a slot (R150 to R152, R156 to R159), and the transmitter (R160, R163). -/

namespace Sys2Proof.Machine

open Sys2Proof

/-! ## Levels, sizes and fit -/

/-- The level of a kind other than ALERT (R151). -/
def Levels.get (l : Levels) : Kind → Nat
  | .alert => 0
  | .accept => l.accept
  | .jobEvent => l.jobEvent
  | .fareTotal => l.fareTotal
  | .receipt => l.receipt
  | .status => l.status
  | .decline => l.decline
  | .driverMessage => l.driverMessage

/-- The levels with one kind's level replaced (R152). -/
def Levels.set (l : Levels) (k : Kind) (v : Nat) : Levels :=
  match k with
  | .alert => l
  | .accept => { l with accept := v }
  | .jobEvent => { l with jobEvent := v }
  | .fareTotal => { l with fareTotal := v }
  | .receipt => { l with receipt := v }
  | .status => { l with status := v }
  | .decline => { l with decline := v }
  | .driverMessage => { l with driverMessage := v }

/-- The order between kinds in a slot: ALERT stands above every level (R151). -/
def standing (l : Levels) (k : Kind) : Nat := if k = .alert then 4 else l.get k

/-- The long kinds (R151). -/
def longKind : Kind → Bool
  | .fareTotal => true
  | .driverMessage => true
  | .alert => false
  | .accept => false
  | .jobEvent => false
  | .receipt => false
  | .status => false
  | .decline => false

/-- An entry that may not be sent in a contention slot: a long one, or one whose kind has level 0 (R151). -/
def reservationOnly (l : Levels) (k : Kind) : Bool := longKind k || decide (standing l k = 0)

/-- The bytes of the frame that an entry of a kind would build now (R176). -/
def frameSize (s : State) (k : Kind) : Nat :=
  match k with
  | .alert => 24
  | .fareTotal => 48
  | .driverMessage => 80
  | .status => if s.duty.failedEvent.isSome then 20 else 18
  | .accept => 18
  | .jobEvent => 18
  | .receipt => 18
  | .decline => 18

/-- The air time of a frame of b bytes at r bit/s, in milliseconds rounded up (R150). -/
def airTime (rate bytes : Nat) : Nat := (bytes * 8 * 1000 + rate - 1) / rate

/-- Key-up lead plus air time, under the settings as they stand (R150). -/
def sendTime (s : State) (bytes : Nat) : Nat := s.settings.keyLead + airTime s.settings.airRate bytes

/-- A frame fits a slot (R150). -/
def fitsSlot (s : State) (bytes duration : Nat) : Bool := decide (sendTime s bytes ≤ duration)

/-- The duration of a contention slot of the current cycle. -/
def currentTs (s : State) : Nat := (s.radio.plan.map Plan.ts).getD 0

/-! ## Payloads (R176) -/

/-- The fare so far of an ALERT: the computed fare while RUNNING, the stopped total while STOPPED, absent in IDLE (R138). -/
def fareSoFar (s : State) : Option Nat :=
  s.trip.map (fun t => match t.phase with
    | .running => t.fare
    | .stopped total _ => total)

/-- The age of the fix in whole seconds, saturating at 255; all ones when no fix is held (R153; log 14). -/
def fixAge (s : State) : Nat :=
  match s.radio.fix with
  | some f => min ((s.now - f.instant) / 1000) 255
  | none => 255

/-- The ALERT payload with an alert status and the blind mark (R138, R176). -/
def alertPayload (status : Nat) (blind : Bool) (s : State) : List Byte :=
  packBytes [(2, status), (4, s.alarm.record.presses), (1, blind.toNat),
    (21, (s.alarm.record.startTime.map clockNat).getD (2 ^ 21 - 1)), (27, (fareSoFar s).getD (2 ^ 27 - 1)),
    (3, dutyCode s.duty.state), (1, s.duty.signedOn.toNat), (2, tripCode s.trip),
    (25, signedField 25 ((s.radio.fix.map Fix.latitude).getD (-16777216))),
    (26, signedField 26 ((s.radio.fix.map Fix.longitude).getD (-1))), (8, fixAge s)]

/-- The alert status of an ALERT entry: CANCELLED 3 for the entry of R140, else the emergency state (R138, R176). -/
def alertStatus (cancelled : Bool) (s : State) : Nat := if cancelled then 3 else emergencyCode s.alarm.record.state

/-- The closed trip that a FARE TOTAL carries: the oldest unreported entry (R57). -/
def carriedTrip (closed : List ClosedTrip) : Option ClosedTrip := closed.find? (fun c => !c.reported)

/-- The FARE TOTAL fields of a closed trip (R57, R176). -/
def fareTotalPayload (c : ClosedTrip) : List Byte :=
  natBytes 1 c.count ++ clockBytes c.first ++ clockBytes c.last ++ natBytes 4 c.total ++ natBytes 4 c.extras ++ natBytes 4 c.distance ++
    optFrom1 2 c.job

/-- The STATUS fields, with the failed-job-event record only when one is held (R73, R176). -/
def statusPayload (reason : StatusReason) (s : State) : List Byte :=
  packBytes [(4, statusReasonCode reason), (3, dutyCode s.duty.state), (1, s.duty.signedOn.toNat)] ++
  packBytes [(2, presenceAirCode s.duty.presence), (2, tripCode s.trip), (4, s.duty.soonClear.getD 0)] ++
  optFrom1 2 (s.duty.current.map Job.number) ++ optFrom1 2 (s.duty.next.map Job.number) ++
  optFrom1 2 ((s.trip.bind Trip.job).map TripJob.number) ++
  (match s.duty.failedEvent with
   | some f => natBytes 1 (jobEventCode f.kind) ++ natBytes 2 f.number
   | none => [])

/-- The DRIVER MESSAGE fields of an outbound entry (R120, R176). -/
def driverMessagePayload (o : Outbound) (pool : List Block) : List Byte :=
  natBytes 1 o.localNumber ++ optFrom1 2 o.linked ++
  (match o.content with
   | .canned code => natBytes 1 code ++ natBytes 1 0
   | .text ref => natBytes 1 0 ++ textBytes (readText pool ref))

/-- The fields of an entry's payload, before the filling, from its owner's record as it stands now (R154, R176). -/
def payloadFields (c : Content) (s : State) : List Byte :=
  match c with
  | .alert cancelled => alertPayload (alertStatus cancelled s) false s
  | .accept n => natBytes 2 n ++ natBytes 1 (dutyCode s.duty.state)
  | .jobEvent k n t => natBytes 1 (jobEventCode k) ++ natBytes 2 n ++ clockBytes t
  | .fareTotal => ((carriedTrip s.closed).map fareTotalPayload).getD []
  | .receipt n st => natBytes 2 n ++ natBytes 1 (receiptCode st)
  | .status reason => statusPayload reason s
  | .decline n reason => natBytes 2 n ++ natBytes 1 (declineCode reason)
  | .driverMessage n =>
    ((s.messages.outbound.find? (fun o => decide (o.localNumber = n))).map (fun o => driverMessagePayload o s.pool)).getD []

/-- The least size of a payload: zero bytes fill it up (R176). -/
def payloadSize (k : Kind) : Nat :=
  match k with
  | .fareTotal => 39
  | .driverMessage => 71
  | .alert => 9
  | .accept => 9
  | .jobEvent => 9
  | .receipt => 9
  | .status => 9
  | .decline => 9

/-- Filling with zero bytes to a size. -/
def fillTo (size : Nat) (bs : List Byte) : List Byte := bs ++ List.replicate (size - bs.length) 0

/-- The payload of an entry (R176). -/
def buildPayload (c : Content) (s : State) : List Byte := fillTo (payloadSize (contentKind c)) (payloadFields c s)

/-- An uplink frame of this cab from the sync word to the CRC (R160, R176). -/
def uplinkFrame (s : State) (kind seq flags : Nat) (payload : List Byte) : List Byte :=
  let body := packBytes [(8, s.settings.fleet), (2, 3), (12, s.settings.cab), (4, kind), (4, seq), (3, flags), (7, payload.length)] ++ payload
  natBytes 2 0x9C6B ++ body ++ natBytes 2 (crc16 body).toNat

/-! ## Choosing a frame (R157 to R159) -/

/-- An entry that is READY and waits for a reserved slot: reservation only, or short and too long for Ts (R159). -/
def waitsForReserved (s : State) (e : Entry) : Bool :=
  decide (e.state = .ready) &&
  (reservationOnly s.radio.levels e.kind || (!longKind e.kind && !fitsSlot s (frameSize s e.kind) (currentTs s)))

/-- The pending count: the entries, other than the one sent, that wait for a reserved slot, saturating at 7 (R159). -/
def pendingCount (sent : Option Nat) (s : State) : Nat :=
  min (s.radio.queue.countP (fun e => waitsForReserved s e && decide (some e.arrival ≠ sent))) 7

/-- The order of R157: higher level, then lower rank, then older. -/
def goesBefore (l : Levels) (a b : Entry) : Bool :=
  decide (standing l b.kind < standing l a.kind) ||
  (decide (standing l a.kind = standing l b.kind) &&
    (decide (kindCode a.kind < kindCode b.kind) ||
      (decide (kindCode a.kind = kindCode b.kind) && decide (a.arrival < b.arrival))))

/-- The entry that goes before the others (R157, R158). -/
def firstOf (l : Levels) : List Entry → Option Entry
  | [] => none
  | e :: rest => match firstOf l rest with
    | none => some e
    | some b => some (if goesBefore l b e then b else e)

/-- The candidates of a contention slot: READY, short, not reservation only, fitting Ts (R157). -/
def contentionCandidates (s : State) (ts : Nat) : List Entry :=
  s.radio.queue.filter (fun e =>
    decide (e.state = .ready) && !reservationOnly s.radio.levels e.kind && fitsSlot s (frameSize s e.kind) ts)

/-- The candidates of a reserved slot: READY, fitting Tl (R158). -/
def reservedCandidates (s : State) (tl : Nat) : List Entry :=
  s.radio.queue.filter (fun e => decide (e.state = .ready) && fitsSlot s (frameSize s e.kind) tl)

/-- The first sequence from n on, wrapping from 15 to 0, that no entry of the queue holds (R156). -/
def freeSeq (queue : List Entry) : Nat → Nat → Nat
  | 0, n => n
  | fuel + 1, n => if queue.any (fun e => decide (e.seq = some n)) then freeSeq queue fuel ((n + 1) % 16) else n

/-- The sequence an entry is sent under: its own, or the next one (R156). -/
def sequenceFor (r : Radio) (e : Entry) : Nat := e.seq.getD (freeSeq r.queue 16 r.nextSeq)

/-! ## The transmitter (R160, R163) -/

/-- KEY is asserted and a frame goes out (R160). -/
def transmit (kind : TxKind) (frame : List Byte) (s : State) : State :=
  { s with radio := { s.radio with tx := some ⟨kind, frame, s.now, s.now + sendTime s frame.length⟩ } }

/-- The flags of a frame: the pending count in a short one, the repeat indication in a FARE TOTAL (R57, R159, R176). -/
def frameFlags (e : Entry) (s : State) : Nat :=
  match e.kind with
  | .fareTotal => ((carriedTrip s.closed).map (fun c => (!c.unsent).toNat)).getD 0
  | .driverMessage => 0
  | .alert => pendingCount (some e.arrival) s
  | .accept => pendingCount (some e.arrival) s
  | .jobEvent => pendingCount (some e.arrival) s
  | .receipt => pendingCount (some e.arrival) s
  | .status => pendingCount (some e.arrival) s
  | .decline => pendingCount (some e.arrival) s

/-- An entry as its transmission begins: SENDING, under its sequence, with its payload built (R155, R156, R160). -/
def Entry.sent (seq : Nat) (payload : List Byte) (carriesFailed : Bool) (e : Entry) : Entry :=
  { e with seq := some seq, payload := payload, state := .sending, carriesFailed := carriesFailed }

/-- Sending the chosen entry in a slot (R156, R157, R158, R160). -/
def sendEntry (e : Entry) (s : State) : State :=
  transmit (.entry e.arrival)
    (uplinkFrame s (kindCode e.kind) (sequenceFor s.radio e) (frameFlags e s) (buildPayload e.content s))
    { s with
      radio := { s.radio with
        queue := s.radio.queue.map (fun x => if x.arrival = e.arrival then
          x.sent (sequenceFor s.radio e) (buildPayload e.content s) (decide (e.kind = .status) && s.duty.failedEvent.isSome) else x)
        nextSeq := if e.seq.isSome then s.radio.nextSeq else (sequenceFor s.radio e + 1) % 16 } }

/-- Whether the cab number and the fleet code are set: without them KEY is asserted for no frame (R160). -/
def identitySet (s : State) : Bool := decide (s.settings.cab ≠ 0 ∧ s.settings.fleet ≠ 0)

/-- The blind ALERT frame as of now: sequence 0, flags 0, the blind mark set (R139, R176). -/
def blindFrame (status : Nat) (s : State) : List Byte := uplinkFrame s 1 0 0 (alertPayload status true s)

/-- A blind ALERT is asked for: sent at once, or, while KEY is asserted, as soon as KEY is released (R139, R163). A frame that waits is the one built
now, with the identity of now, though a SET IDENTITY is taken meanwhile: a choice between R163 and R172 (log 35). -/
def sendBlind (status : Nat) (s : State) : State :=
  if identitySet s then
    if keyAsserted s then { s with radio := { s.radio with blindWaiting := s.radio.blindWaiting ++ [blindFrame status s] } }
    else transmit .blind (blindFrame status s) s
  else s

/-- The next blind frame that waits for KEY, if any, is sent now (R163). -/
def sendNextBlind (s : State) : State :=
  match s.radio.blindWaiting with
  | [] => s
  | f :: rest => transmit .blind f { s with radio := { s.radio with blindWaiting := rest } }

/-- KEY is released: reception stays blanked for 20 ms (R144), and a blind frame that waits is sent (R163). -/
def releaseKey (s : State) : State :=
  sendNextBlind { s with radio := { s.radio with tx := none, blankedUntil := some (s.now + 20) } }

/-- What becomes of the entry whose transmission has ended (R154, R155): removed if its owner removed it, with the creation that waited made
now; READY with retry count 0 and no sequence if its owner refreshed it; and otherwise the state given, AWAITING ACK after a complete
transmission and READY after one cut off (R128). -/
def Radio.settleEntry (arrival : Nat) (otherwise : EntryState) (r : Radio) : Radio :=
  match r.queue.find? (fun e => decide (e.arrival = arrival)) with
  | none => r
  | some e =>
    if e.removed then
      match e.deferred with
      | some c => Radio.create c { r with queue := r.queue.filter (fun x => decide (x.arrival ≠ arrival)) }
      | none => { r with queue := r.queue.filter (fun x => decide (x.arrival ≠ arrival)) }
    else
      { r with queue := r.queue.map (fun x => if x.arrival = arrival then
          (if x.refreshed then { x with state := .ready, retry := 0, backoff := 0, seq := none, refreshed := false, carriesFailed := false }
           else { x with state := otherwise, backoff := 0 }) else x) }

/-! ## Reception (R143 to R145) -/

/-- The Sorter drops a frame addressed to another cab's number (R145). -/
def forThisCab (s : State) (a : Address) : Bool :=
  match a with
  | .cab n => decide (n = s.settings.cab)
  | .all => true
  | .zone _ => true

/-- The address of a downlink command. -/
def downlinkAddress : Instr → Option Address
  | .cycleHead a _ | .offer a _ | .award a _ | .lost a _ | .withdraw a _ | .jobCancel a _ | .poll a | .message a _ _ _ | .alertSeen a
  | .standDown a | .beaconHold a _ => some a
  | _ => none

/-- The payload bytes of the frame that carries a downlink command (R176). -/
def downlinkPayload : Instr → Nat
  | .cycleHead _ h => 8 + 2 * h.reservations.length + 2 * h.acks.length
  | .offer _ o => 10 + o.text.length
  | .award _ _ | .lost _ _ | .withdraw _ _ | .jobCancel _ _ => 2
  | .message _ _ _ text => 4 + text.length
  | .beaconHold _ _ => 1
  | _ => 0

/-- The bytes of that frame from the sync word to the CRC (R143, R176). -/
def downlinkBytes (c : Instr) : Nat := 9 + downlinkPayload c

/-- No bit of a frame of b bytes whose last bit is received now fell within the blanking that last ended (R144; log 22). -/
def clearOfBlanking (s : State) (bytes : Nat) : Bool :=
  match s.radio.blankedUntil with
  | none => true
  | some ended => decide (ended + airTime s.settings.airRate bytes ≤ s.now)

/-- A frame reaches its owner: the fleet code is set, no bit of the frame met the blanking, KEY asserted or the time after it (R143, R144), and its
address is one that the Air Framer keeps and the Sorter does not drop (R143, R145). -/
def hears (s : State) (c : Instr) : Bool :=
  match downlinkAddress c with
  | some a => decide (s.settings.fleet ≠ 0) && !keyAsserted s && clearOfBlanking s (downlinkBytes c) && a.wellFormed && forThisCab s a
  | none => false

/-- A frame received: if it is heard and its fields are taken, one event at its owner (R143 to R145). -/
def receive (c : Instr) (taken : Bool) (f : State → State) (s : State) : State := if hears s c && taken then f s else s

/-- The address names a cab: the only form in which AWARD, LOST, WITHDRAW and JOB CANCEL are delivered, and to which the Alarm Unit answers
(R133, R134, R136, R145). -/
def toCab (a : Address) : Bool :=
  match a with
  | .cab _ => true
  | .all => false
  | .zone _ => false

end Sys2Proof.Machine
end

