-- ==== Sys2Proof/Machine/Fare.lean ====
section
/-! DEFINITION. The Distance Counter and the Fare Engine (01), with the band lookup (R35): the meanings of DIST_PULSE and EVALUATION, and the
fare's part of FLAG DOWN, STOP and ADD EXTRA. -/

namespace Sys2Proof.Machine

open Sys2Proof

/-! ## Bands, units and the lookup -/

/-- Band n of an image (R23). -/
def Image.band (img : Image) (n : Nat) : Band :=
  match n with
  | 2 => img.band2
  | 3 => img.band3
  | 4 => img.band4
  | _ => img.band1

/-- U, the units of one step (R4). -/
def Band.units (b : Band) : Nat := b.dstep * b.tstep

/-- Uinit, the units of the initial allowance (R4). -/
def Band.initialUnits (b : Band) : Nat := if b.d0 = 0 then b.units else b.d0 * b.tstep

/-- tu, the units of one second of time (R4). -/
def Band.timeUnits (b : Band) : Nat := 10 * b.dstep

/-- du, the units of d metres (R4). -/
def Band.distanceUnits (b : Band) (d : Nat) : Nat := d * b.tstep

/-- A schedule entry qualifies for a day and a minute (R35). -/
def ScheduleEntry.qualifies (e : ScheduleEntry) (day minute : Nat) : Bool :=
  e.days.getLsbD (day - 1) && decide (e.start ≤ minute)

/-- The qualifying entry with the latest start, and of two that share it the later in the schedule (R35). -/
def latestEntry (day minute : Nat) (schedule : List ScheduleEntry) : Option ScheduleEntry :=
  schedule.foldl (fun best e =>
    if e.qualifies day minute then
      match best with
      | none => some e
      | some b => if b.start ≤ e.start then some e else some b
    else best) none

/-- The minute of the day (R32). -/
def ClockReading.minuteOfDay (c : ClockReading) : Nat := 60 * c.hour + c.minute

/-- The band lookup (R35): band 1 while the clock is unset or no entry qualifies. -/
def bandLookup (img : Image) (c : ClockReading) : Nat :=
  if c.isSet then ((latestEntry c.day c.minuteOfDay img.schedule).map ScheduleEntry.band).getD 1 else 1

/-- What the first lookup with the clock unset does besides: CLOCK NOT SET is logged and the clock-unset mark set (R35). -/
def lookupMark (active : Bool) (s : State) : State :=
  if s.tariff.clock.isSet = false ∧ s.tariff.clockUnsetMark = false then
    placeFault .clockNotSet active { s with tariff := { s.tariff with clockUnsetMark := true } }
  else s

/-! ## Charging (R12 to R14) -/

/-- Charging n steps of amount a: the steps rise, and the fare rises to at most its bound, where the saturated mark is set (R12, R14). -/
def Trip.charge (n a : Nat) (t : Trip) : Trip :=
  if n = 0 then t
  else
    { t with
      steps := satAdd Config.countMax t.steps n
      fare := satAdd Config.fareMax t.fare (n * a)
      saturated := t.saturated || decide (Config.fareMax < t.fare + n * a) }

/-- The steps that the units left after the first step reach under one band: P / U of them, P % U staying (R12). -/
def Trip.chargeRest (b : Band) (t : Trip) : Trip :=
  { t.charge (t.progress / b.units) b.a with progress := t.progress % b.units, remaining := b.units }

/-- The first step of an evaluation: charged at A of the band in force, with Rm of its units used up (R12). -/
def Trip.chargeFirst (img : Image) (t : Trip) : Trip :=
  { t.charge 1 (img.band t.band).a with progress := t.progress - t.remaining, remaining := (img.band t.band).units }

/-- A pending band taking effect after a step (R13). -/
def Trip.changeBand (img : Image) (n : Nat) (t : Trip) : Trip :=
  { t with
    progress := t.progress * (img.band n).units / (img.band t.band).units
    remaining := (img.band n).units
    band := n
    pendingBand := none }

/-- The steps charged by an evaluation (R12, R13): none while P is below Rm; else the first step, then the change to a pending band, then the
steps that the rest of the units reach under the band in force. -/
def Trip.chargeSteps (img : Image) (t : Trip) : Trip :=
  if t.progress < t.remaining then t
  else
    match t.pendingBand with
    | none => (t.chargeFirst img).chargeRest (img.band t.band)
    | some n => ((t.chargeFirst img).changeBand img n).chargeRest (img.band n)

/-- The notices of an evaluation of the trip t (R13, R15): STEP and TRIP when it charges a step, BAND CHANGED when the change is made. -/
def chargeNotices (t : Trip) (s : State) : State :=
  if t.progress < t.remaining then s
  else
    { s with
      meter := s.meter.place (if t.pendingBand.isSome then noticeStep ||| noticeBandChanged else noticeStep)
      terminal := s.terminal.place noticeTrip }

/-! ## An evaluation (R8 to R13) -/

/-- The pending band after the lookup of an AUTO trip; a FIXED trip has none (R8). -/
def lookedUp (img : Image) (c : ClockReading) (t : Trip) : Trip :=
  match t.mode with
  | .auto => { t with pendingBand := if bandLookup img c = t.band then none else some (bandLookup img c) }
  | .fixed => t

/-- The metres of the interval, clamped, entering the charged distance, with the speed fault mark (R9). -/
def Trip.addMetres (metres : Nat) (t : Trip) : Trip :=
  { t with
    distance := satAdd Config.countMax t.distance (min metres Config.clampMetres)
    speedFault := t.speedFault || decide (Config.clampMetres < metres) }

/-- SPEED IMPLAUSIBLE, the first time in a trip that the metres are clamped (R9). -/
def speedFaultEntry (metres : Nat) (t : Trip) (s : State) : State :=
  if Config.clampMetres < metres ∧ t.speedFault = false then placeFault .speedImplausible true s else s

/-- The units of a whole second (R10, R11). -/
def secondUnits (b : Band) (d : Nat) : Nat :=
  match b.mode with
  | .single => max (b.distanceUnits d) b.timeUnits
  | .double => b.distanceUnits d + b.timeUnits

/-- Whether the second is a waiting second (R10, R11). -/
def waitingSecond (b : Band) (d : Nat) : Bool :=
  match b.mode with
  | .single => decide (b.distanceUnits d < b.timeUnits)
  | .double => true

/-- The trip after the units of a second have been added, before its steps are charged (R9 to R11). -/
def Trip.addSecond (img : Image) (metres : Nat) (t : Trip) : Trip :=
  { t.addMetres metres with
    progress := t.progress + secondUnits (img.band t.band) (min metres Config.clampMetres)
    waiting := if waitingSecond (img.band t.band) (min metres Config.clampMetres) then satAdd Config.countMax t.waiting 1 else t.waiting }

/-- One evaluation of a RUNNING trip under the active image (R8 to R15). -/
def evaluate (img : Image) (t : Trip) (s : State) : State :=
  let found := lookedUp img s.tariff.clock t
  let added := found.addSecond img s.dist.metres
  let marked := if t.mode = .auto then lookupMark true s else s
  chargeNotices added
    { speedFaultEntry s.dist.metres t marked with
      trip := some (added.chargeSteps img)
      dist := { s.dist with metres := 0 } }

/-- The partial evaluation of a STOP (R16): distance only, no lookup. -/
def partialEvaluate (img : Image) (t : Trip) (s : State) : State :=
  let added := { t.addMetres s.dist.metres with
    progress := t.progress + (img.band t.band).distanceUnits (min s.dist.metres Config.clampMetres) }
  chargeNotices added
    { speedFaultEntry s.dist.metres t s with
      trip := some (added.chargeSteps img)
      dist := { s.dist with metres := 0 } }

/-! ## The amount due (R17, R22) -/

/-- The extras sum under an image (R17). -/
def extrasSum (img : Image) (extras : List (Nat × Nat)) : Nat :=
  extras.foldl (fun acc e => acc + e.2 * ((img.extras[e.1 - 1]?.map Extra.amount).getD 0)) 0

/-- The extras sum of a trip: extras are priced at 0 while no image is active (R17, R22). -/
def tripExtras (active : Option StoredImage) (t : Trip) : Nat :=
  match active with
  | some i => extrasSum i.image t.extras
  | none => 0

/-- The stopped total (R17); the computed fare while no image is active (R22). -/
def stoppedTotal (active : Option StoredImage) (t : Trip) : Nat :=
  match active with
  | some i => max t.fare (i.image.band t.flagDownBand).fmin + extrasSum i.image t.extras
  | none => t.fare

/-- The minimum uplift (R17); 0 while no image is active (R22). -/
def minimumUplift (active : Option StoredImage) (t : Trip) : Nat :=
  match active with
  | some i => (i.image.band t.flagDownBand).fmin - t.fare
  | none => 0

/-- The trip STOPPED with its total and uplift fixed as they stand now (R16, R17). -/
def Trip.stopped (active : Option StoredImage) (t : Trip) : Trip :=
  { t with phase := .stopped (stoppedTotal active t) (minimumUplift active t) }

/-! ## The meanings -/

/-- Metres handed to the places that count them (R2); while the fare is held, metres-this-interval is set to 0 as each arrives (R22). -/
def countMetres (n : Nat) (s : State) : State :=
  { s with
    totals := { s.totals with
      distance := satAdd Config.countMax s.totals.distance n
      hired := if tripRunning s then satAdd Config.countMax s.totals.hired n else s.totals.hired }
    dist := { s.dist with
      metres := if tripRunning s then
          (if fareHeld s then (if n = 0 then s.dist.metres else 0) else satAdd Config.metresMax s.dist.metres n)
        else s.dist.metres } }

/-- A pulse on DIST under a K that is set (R1). -/
def takePulse (s : State) : State :=
  countMetres ((s.dist.remainder + 1000) / s.settings.k)
    { s with dist := { s.dist with remainder := (s.dist.remainder + 1000) % s.settings.k } }

/-- DIST_PULSE (R1, R2): ignored while K is unset. -/
def execDistPulse (s : State) : Out :=
  whenUp (fun s => if s.settings.k = 0 then s else takePulse s) s

/-- An expiry of the evaluation timer (R7): the timer runs on to its next expiry one second later, and one evaluation is made. -/
def takeEvaluation (s : State) : State :=
  match s.evalDue with
  | none => s
  | some due =>
    match s.trip, s.tariff.active with
    | some t, some i =>
      if t.phase = .running then evaluate i.image t { reach due s with evalDue := some (due + 1000) } else s
    | _, _ => s

/-- EVALUATION (R7 to R15): nothing while the evaluation timer is stopped. -/
def execEvaluation (s : State) : Out := whenUp takeEvaluation s

end Sys2Proof.Machine
end

