-- ==== Sys2Proof/Machine/Tariff.lean ====
section
/-! DEFINITION. The Tariff Store (02): loading, committing and reading tariff images, the calendar clock and CALIBRATE. -/

namespace Sys2Proof.Machine

open Sys2Proof

/-! ## The laid-out form of an image (11.4) -/

/-- A value within bounds. -/
def within (lo hi v : Nat) : Bool := decide (lo ≤ v ∧ v ≤ hi)

/-- The mode that a byte names: S 0, D 1 (11.4). -/
def modeOf : Nat → Option StepMode
  | 0 => some .single
  | 1 => some .double
  | _ => none

/-- The code of a step mode (11.4). -/
def stepModeCode : StepMode → Nat
  | .single => 0
  | .double => 1

/-- The ranges of R23. -/
def Band.inRange (b : Band) : Bool :=
  within 0 99999 b.f0 && within 0 65535 b.d0 && within 1 9999 b.a && within 1 9999 b.dstep && within 1 65535 b.tstep &&
  within 0 99999 b.fmin

/-- The 15 bytes of a band (11.4). -/
def bandBytes (b : Band) : List Byte :=
  natBytes 3 b.f0 ++ natBytes 2 b.d0 ++ natBytes 2 b.a ++ natBytes 2 b.dstep ++ natBytes 2 b.tstep ++ natBytes 1 (stepModeCode b.mode) ++
    natBytes 3 b.fmin

/-- The band that 15 bytes spell, where every value is in range (R23, R27). -/
def decodeBand : List Byte → Option Band
  | [f1, f2, f3, d1, d2, a1, a2, s1, s2, t1, t2, m, g1, g2, g3] =>
    match modeOf m.toNat with
    | some mode =>
      let b : Band := ⟨bytesNat [f1, f2, f3], bytesNat [d1, d2], bytesNat [a1, a2], bytesNat [s1, s2], bytesNat [t1, t2], mode,
        bytesNat [g1, g2, g3]⟩
      if b.inRange then some b else none
    | none => none
  | _ => none

/-- The ranges of a schedule entry other than its day set (R24). -/
def ScheduleEntry.inRange (e : ScheduleEntry) : Bool := within 0 1439 e.start && within 1 4 e.band

/-- The 4 bytes of a schedule entry (11.4). -/
def scheduleBytes (e : ScheduleEntry) : List Byte := natBytes 1 e.days.toNat ++ natBytes 2 e.start ++ natBytes 1 e.band

/-- Schedule entries read four bytes each, where every value is in range (R24, 11.4). -/
def decodeSchedule : List Byte → Option (List ScheduleEntry)
  | [] => some []
  | d :: m1 :: m2 :: b :: rest =>
    let e : ScheduleEntry := ⟨d.setWidth 7, bytesNat [m1, m2], b.toNat⟩
    if d.getLsbD 7 = false ∧ e.inRange then (decodeSchedule rest).map (e :: ·) else none
  | _ => none

/-- The ranges of an extra (R24). -/
def Extra.inRange (e : Extra) : Bool := within 0 99999 e.amount && within 1 99 e.maxCount

/-- The 4 bytes of an extra (11.4). -/
def extraBytes (e : Extra) : List Byte := natBytes 3 e.amount ++ natBytes 1 e.maxCount

/-- Extras read four bytes each, where every value is in range (R24, 11.4). -/
def decodeExtras : List Byte → Option (List Extra)
  | [] => some []
  | a1 :: a2 :: a3 :: c :: rest =>
    let e : Extra := ⟨bytesNat [a1, a2, a3], c.toNat⟩
    if e.inRange then (decodeExtras rest).map (e :: ·) else none
  | _ => none

/-- The argument bytes of the LOAD TARIFF PART request of part 0, the part number included (11.4). -/
def part0Bytes (version : Nat) (b1 b2 : Band) : List Byte := natBytes 1 0 ++ natBytes 2 version ++ bandBytes b1 ++ bandBytes b2

/-- Part 1 (11.4). -/
def part1Bytes (b3 b4 : Band) : List Byte := natBytes 1 1 ++ bandBytes b3 ++ bandBytes b4

/-- Part 2 (11.4). -/
def part2Bytes (es : List ScheduleEntry) : List Byte := natBytes 1 2 ++ natBytes 1 es.length ++ es.flatMap scheduleBytes

/-- Part 3 (11.4). -/
def part3Bytes (es : List Extra) : List Byte := natBytes 1 3 ++ natBytes 1 es.length ++ es.flatMap extraBytes

/-- The four parts of an image in part order (R25). -/
def imageBytes (i : Image) : List Byte :=
  part0Bytes i.version i.band1 i.band2 ++ part1Bytes i.band3 i.band4 ++ part2Bytes i.schedule ++ part3Bytes i.extras

/-- The check value of an image (R25). -/
def imageCheck (i : Image) : Check := crc16 (imageBytes i)

/-- A part stored in the staged image, where its number and every value are in range (R27). -/
def stagePart (st : Staged) (part : Nat) (content : List Byte) : Option Staged :=
  match part with
  | 0 => match decodeBand ((content.drop 2).take 15), decodeBand (content.drop 17) with
    | some b1, some b2 => some { st with part0 := some (bytesNat (content.take 2), b1, b2) }
    | _, _ => none
  | 1 => match decodeBand (content.take 15), decodeBand (content.drop 15) with
    | some b3, some b4 => some { st with part1 := some (b3, b4) }
    | _, _ => none
  | 2 => match content with
    | n :: rest => if n.toNat ≤ 8 then (decodeSchedule rest).map (fun es => { st with part2 := some es }) else none
    | [] => none
  | 3 => match content with
    | n :: rest => if n.toNat ≤ 8 then (decodeExtras rest).map (fun es => { st with part3 := some es }) else none
    | [] => none
  | _ => none

/-- The staged image, when it is complete (R26). -/
def Staged.image (st : Staged) : Option Image :=
  match st.part0, st.part1, st.part2, st.part3 with
  | some (v, b1, b2), some (b3, b4), some schedule, some extras => some ⟨v, b1, b2, b3, b4, schedule, extras⟩
  | _, _, _, _ => none

/-! ## Loading and committing -/

/-- The Tariff Store's taking of LOAD TARIFF PART (R27). A content of the wrong length is answered BAD FRAME, as the port answers it. -/
def loadTariffPart (part : Nat) (content : List Byte) (s : State) : Reply :=
  if tariffContentLength part content then
    match stagePart s.tariff.staged part content with
    | some st => done .ok { s with tariff := { s.tariff with staged := st } }
    | none => done .badValue s
  else done .badFrame s

/-- LOAD_TARIFF_PART (R27). -/
def execLoadTariffPart (part : Nat) (content : List Byte) (s : State) : Out :=
  whenUp (request .meter (.loadTariffPart part content) (loadTariffPart part content)) s

/-- A commit that succeeds (R28): to the active place in IDLE with the notice TARIFF ACTIVE, else to the pending place; the staged image is
emptied. -/
def commitImage (i : StoredImage) (s : State) : State :=
  match s.trip with
  | none => noticeMeter noticeTariffActive { s with tariff := { s.tariff with active := some i, staged := Staged.empty } }
  | some _ => { s with tariff := { s.tariff with pending := some i, staged := Staged.empty } }

/-- The Tariff Store's taking of COMMIT TARIFF (R28). -/
def commitTariff (expected : Nat) (s : State) : Reply :=
  match s.tariff.staged.image with
  | none => done .incomplete s
  | some i => if (imageCheck i).toNat = expected then done .ok (commitImage ⟨i, imageCheck i⟩ s) else done .checkMismatch s

/-- COMMIT_TARIFF (R28). -/
def execCommitTariff (expected : Nat) (s : State) : Out :=
  whenUp (request .meter (.commitTariff expected) (commitTariff expected)) s

/-- A place as READ TARIFF CHECK reports it: a flag, the version and the check value, all ones when absent (R30; log 13). -/
def placeBytes (i : Option StoredImage) : List Byte :=
  flagByte i.isSome ++ optFrom0 2 (i.map (fun x => x.image.version)) ++ optFrom0 2 (i.map (fun x => x.check.toNat))

/-- The set of parts received as a byte, part n in bit n (R30; log 13). -/
def partsByte (st : Staged) : List Byte :=
  packBytes [(4, 0), (1, st.part3.isSome.toNat), (1, st.part2.isSome.toNat), (1, st.part1.isSome.toNat), (1, st.part0.isSome.toNat)]

/-- The data of READ TARIFF CHECK (R30). -/
def tariffCheckData (t : TariffStore) : List Byte :=
  placeBytes t.active ++ placeBytes t.pending ++ partsByte t.staged ++ optFrom0 2 (t.staged.part0.map Prod.fst) ++
    optFrom0 2 (t.staged.image.map (fun i => (imageCheck i).toNat))

/-- READ_TARIFF_CHECK (R30). -/
def execReadTariffCheck (s : State) : Out :=
  whenUp (request .meter .readTariffCheck (fun s => answer .ok (tariffCheckData s.tariff) s)) s

/-! ## The calendar clock -/

/-- The ranges of R32. -/
def clockInRange (day hour minute second : Nat) : Bool := within 1 7 day && within 0 23 hour && within 0 59 minute && within 0 59 second

/-- The Tariff Store's taking of SET CLOCK (R33). -/
def setClock (day hour minute second : Nat) (s : State) : Reply :=
  if s.trip.isSome then done .refusedState s
  else if clockInRange day hour minute second then
    done .ok { s with tariff := { s.tariff with clock := ⟨true, day, hour, minute, second⟩, clockUnsetMark := false } }
  else done .badValue s

/-- SET_CLOCK (R33). -/
def execSetClock (day hour minute second : Nat) (s : State) : Out :=
  whenUp (request .meter (.setClock day hour minute second) (setClock day hour minute second)) s

/-- READ_CLOCK (R34), as a clock reading of R175. -/
def execReadClock (s : State) : Out :=
  whenUp (request .meter .readClock (fun s => answer .ok (clockBytes s.tariff.clock) s)) s

/-- The clock one second later, with the carries of R32. -/
def ClockReading.tick (c : ClockReading) : ClockReading :=
  if c.second < 59 then { c with second := c.second + 1 }
  else if c.minute < 59 then { c with minute := c.minute + 1, second := 0 }
  else if c.hour < 23 then { c with hour := c.hour + 1, minute := 0, second := 0 }
  else { c with day := if c.day < 7 then c.day + 1 else 1, hour := 0, minute := 0, second := 0 }

/-- CLOCK_TICK (R32): a set clock advances by one second, with or without VMAIN; an unset clock stands. -/
def execClockTick (s : State) : Out :=
  .next (if s.tariff.clock.isSet then { s with tariff := { s.tariff with clock := s.tariff.clock.tick } } else s)

/-! ## Calibration -/

/-- The installer's conditions of CALIBRATE and SET IDENTITY: the trip is IDLE and the duty state OFF DUTY (R36, R172). -/
def offDutyIdle (s : State) : Bool := s.trip.isNone && decide (s.duty.state = .offDuty)

/-- The Tariff Store's taking of CALIBRATE (R36): K is written and the metre remainder set to 0. -/
def calibrate (k : Nat) (s : State) : Reply :=
  if offDutyIdle s = false then done .refusedState s
  else if within 500 60000 k then
    done .ok { s with settings := { s.settings with k := k }, dist := { s.dist with remainder := 0 } }
  else done .badValue s

/-- CALIBRATE (R36). -/
def execCalibrate (k : Nat) (s : State) : Out := whenUp (request .meter (.calibrate k) (calibrate k)) s

end Sys2Proof.Machine
end

