-- ==== Sys2Proof/Machine/Duty.lean ====
section
/-! DEFINITION. The Duty Unit (04): the duty commands, the job slots, POLL and JOB CANCEL, the STATUS interval and terminal presence. -/

namespace Sys2Proof.Machine

open Sys2Proof

/-! ## Signing on and off (R65) -/

/-- The duty state after the flag is set (R65). -/
def DutyState.signedOn (d : DutyState) : DutyState :=
  match d with
  | .offDuty => .vacant
  | .vacant => .vacant
  | .assigned => .assigned
  | .hired => .hired
  | .clearing => .clearing

/-- The duty state after the flag is cleared (R65). -/
def DutyState.signedOff (d : DutyState) : DutyState :=
  match d with
  | .offDuty => .offDuty
  | .vacant => .offDuty
  | .assigned => .assigned
  | .hired => .hired
  | .clearing => .hired

/-- The SIGN ON that sets the flag: presence becomes PRESENT, and the presence and status-interval timers start (R65, R74, R77). -/
def takeSignOn (s : State) : State :=
  dutyChanged .signOn
    { s with duty := { s.duty with
      state := s.duty.state.signedOn, signedOn := true, presence := .present, presenceDue := some (s.now + 30000) } }

/-- The Duty Unit's taking of SIGN ON (R65). -/
def signOn (s : State) : Reply :=
  if s.settings.cab = 0 ∨ s.settings.fleet = 0 then done .noIdentity s
  else if s.duty.signedOn then done .ok s
  else done .ok (takeSignOn s)

/-- SIGN_ON (R65). -/
def execSignOn (s : State) : Out := whenUp (request .terminal .signOn signOn) s

/-- An offer is in ACCEPTING or AWAITING AWARD. -/
def Offer.accepted (o : Offer) : Bool :=
  match o.state with
  | .accepting _ => true
  | .awaitingAward _ => true
  | _ => false

/-- The Offer Table holds an accepted offer (R65, R91). -/
def acceptancePending (s : State) : Bool := s.offers.entries.any Offer.accepted

/-- The SIGN OFF that clears the flag: presence is no longer tracked, and both timers stop (R65). -/
def takeSignOff (s : State) : State :=
  dutyChanged .signOff
    { s with duty := { s.duty with
      state := s.duty.state.signedOff, signedOn := false, presence := .notTracked, presenceDue := none, statusDue := none,
      soonClear := none } }

/-- The Duty Unit's taking of SIGN OFF (R65). -/
def signOff (s : State) : Reply :=
  if s.duty.signedOn = false then done .ok s
  else if s.duty.current.isSome ∨ s.duty.next.isSome ∨ acceptancePending s then done .jobHeld s
  else done .ok (takeSignOff s)

/-- SIGN_OFF (R65). -/
def execSignOff (s : State) : Out := whenUp (request .terminal .signOff signOff) s

/-! ## SOON CLEAR and CANCEL CLEAR (R66, R67) -/

/-- The minutes of a SOON CLEAR that is taken (R66): HIRED becomes CLEARING; in CLEARING other minutes replace those held; the same minutes
change nothing. -/
def takeSoonClear (minutes : Nat) (s : State) : State :=
  if s.duty.state = .hired then
    dutyChanged .duty { s with duty := { s.duty with state := .clearing, soonClear := some minutes } }
  else if s.duty.soonClear = some minutes then s
  else refreshStatus .job (noticeTerminal noticeDuty { s with duty := { s.duty with soonClear := some minutes } })

/-- The Duty Unit's taking of SOON CLEAR (R66). -/
def soonClear (minutes : Nat) (s : State) : Reply :=
  if s.duty.signedOn && (decide (s.duty.state = .hired) || decide (s.duty.state = .clearing)) then
    done (heldIf (decide (clamp 1 15 minutes ≠ minutes))) (takeSoonClear (clamp 1 15 minutes) s)
  else done .refusedState s

/-- SOON_CLEAR (R66). -/
def execSoonClear (minutes : Nat) (s : State) : Out := whenUp (request .terminal (.soonClear minutes) (soonClear minutes)) s

/-- The Duty Unit's taking of CANCEL CLEAR (R67). -/
def cancelClear (s : State) : Reply :=
  if s.duty.state = .clearing then
    done .ok (dutyChanged .duty { s with duty := { s.duty with state := .hired, soonClear := none } })
  else done .refusedState s

/-- CANCEL_CLEAR (R67). -/
def execCancelClear (s : State) : Out := whenUp (request .terminal .cancelClear cancelClear) s

/-! ## The job slots (R68 to R72) -/

/-- The current job ended without a trip: its blocks released, the slot emptied, VACANT, with the notices JOB and DUTY (R70, R71). -/
def endCurrentJob (j : Job) (s : State) : State :=
  dutyChanged .duty (noticeTerminal noticeJob
    { s with
      pool := releaseBlocks j.text.blocks s.pool
      duty := { s.duty with current := none, state := .vacant } })

/-- The Duty Unit's taking of NO SHOW (R70). -/
def noShow (s : State) : Reply :=
  match s.duty.state, s.duty.current with
  | .assigned, some j =>
    if s.radio.generalFree then
      done .ok (endCurrentJob j { s with radio := s.radio.create (.jobEvent .noShow j.number s.tariff.clock) })
    else done .queueFull s
  | _, _ => done .refusedState s

/-- NO_SHOW (R70). -/
def execNoShow (s : State) : Out := whenUp (request .terminal .noShow noShow) s

/-- The fields of a job record (R68, R72). -/
def jobData (pool : List Block) (j : Job) : List Byte :=
  natBytes 2 j.number ++ natBytes 2 j.zone ++ flagByte j.account ++ optFrom0 3 j.estimate ++ textBytes (readText pool j.text) ++
    flagByte j.truncated

/-- A job slot read (R72). -/
def readSlot (slot : Option Job) (s : State) : Reply :=
  match slot with
  | some j => answer .ok (jobData s.pool j) s
  | none => done .notFound s

/-- The Duty Unit's taking of READ JOB (R72): CURRENT 0, NEXT 1 (R177). -/
def readJob (selector : Nat) (s : State) : Reply :=
  match selector with
  | 0 => readSlot s.duty.current s
  | 1 => readSlot s.duty.next s
  | _ => done .badValue s

/-- READ_JOB (R72). -/
def execReadJob (selector : Nat) (s : State) : Out := whenUp (request .terminal (.readJob selector) (readJob selector)) s

/-- A slot holds a job number. -/
def slotHolds (n : Nat) (slot : Option Job) : Bool := (slot.map (fun j => decide (j.number = n))).getD false

/-- The trip record holds a job number. -/
def tripHolds (n : Nat) (t : Option Trip) : Bool := ((t.bind Trip.job).map (fun j => decide (j.number = n))).getD false

/-- A number already awarded to this cab: of a job slot or of the trip (R90, R103, R106). -/
def numberHeld (n : Nat) (s : State) : Bool := slotHolds n s.duty.current || slotHolds n s.duty.next || tripHolds n s.trip

/-- The trip record holds a job number whose job-cancelled mark is still clear: a cancel changes it (R71). -/
def tripToMark (n : Nat) (t : Option Trip) : Bool := ((t.bind Trip.job).map (fun j => decide (j.number = n) && !j.cancelled)).getD false

/-- The blocks of a slot that is emptied because it holds the number (R71, R83). -/
def cancelledBlocks (n : Nat) (slot : Option Job) : List Nat :=
  match slot with
  | some j => if j.number = n then j.text.blocks else []
  | none => []

/-- The job-cancelled mark of a trip that holds the number (R47). -/
def Trip.cancelJob (n : Nat) (t : Trip) : Trip :=
  { t with job := t.job.map (fun j => if j.number = n then { j with cancelled := true } else j) }

/-- The places that hold the number, emptied or marked, with the notice JOB for those that change (R71). -/
def emptyPlaces (n : Nat) (s : State) : State :=
  { s with
    pool := releaseBlocks (cancelledBlocks n s.duty.current ++ cancelledBlocks n s.duty.next) s.pool
    duty := { s.duty with
      current := if slotHolds n s.duty.current then none else s.duty.current
      next := if slotHolds n s.duty.next then none else s.duty.next
      state := if slotHolds n s.duty.current ∧ s.duty.state = .assigned then .vacant else s.duty.state }
    trip := s.trip.map (Trip.cancelJob n)
    terminal := s.terminal.place noticeJob }

/-- The Duty Unit's taking of a JOB CANCEL, or of a WITHDRAW that acts as one (R71): a number found in no place is ignored, and so is a repeat for a
trip that is marked already, since no place changes. -/
def cancelJob (n : Nat) (s : State) : State :=
  if slotHolds n s.duty.current then dutyChanged .duty (emptyPlaces n s)
  else if slotHolds n s.duty.next then refreshStatus .job (emptyPlaces n s)
  else if tripToMark n s.trip then emptyPlaces n s
  else s

/-- JOB_CANCEL (R71, R145): delivered to this cab; a number of 0 is malformed. -/
def execJobCancel (a : Address) (n : Nat) (s : State) : Out :=
  whenUp (receive (.jobCancel a n) (toCab a && decide (n ≠ 0)) (cancelJob n)) s

/-! ## STATUS and presence (R73 to R78) -/

/-- POLL (R75): the STATUS content is replaced, whatever the address form. -/
def execPoll (a : Address) (s : State) : Out := whenUp (receive (.poll a) true (refreshStatus .poll)) s

/-- An expiry of the status-interval timer (R74). -/
def takeStatusInterval (s : State) : State :=
  match s.duty.statusDue with
  | none => s
  | some due => refreshStatus .interval (reach due s)

/-- STATUS_INTERVAL_EXPIRY (R74): nothing while the timer is stopped. -/
def execStatusIntervalExpiry (s : State) : Out := whenUp takeStatusInterval s

/-- An expiry of the presence timer while presence is PRESENT (R77). -/
def takePresenceExpiry (s : State) : State :=
  match s.duty.presenceDue with
  | none => s
  | some due =>
    if s.duty.presence = .present then
      dutyChanged .presence
        { reach due s with duty := { s.duty with presence := .absent, presenceDue := none } }
    else s

/-- PRESENCE_TIMER_EXPIRY (R77): nothing while the timer is stopped. -/
def execPresenceTimerExpiry (s : State) : Out := whenUp takePresenceExpiry s

/-- The failed-job-event record in a reply: kind and number, or their absence (R78; log 13). -/
def failedEventBytes (f : Option FailedJobEvent) : List Byte :=
  optFrom0 1 (f.map (fun x => jobEventCode x.kind)) ++ optFrom1 2 (f.map FailedJobEvent.number)

/-- The data of READ STATUS (R78). -/
def statusData (s : State) : List Byte :=
  natBytes 1 (dutyCode s.duty.state) ++ flagByte s.duty.signedOn ++ natBytes 1 (presenceCode s.duty.presence) ++ optFrom1 1 s.duty.soonClear ++
  optFrom1 2 (s.duty.current.map Job.number) ++ optFrom1 2 (s.duty.next.map Job.number) ++ failedEventBytes s.duty.failedEvent ++
  natBytes 1 (linkCode s.radio.link) ++ natBytes 1 (freeCount s.pool) ++ natBytes 4 s.totals.trips ++ natBytes 4 s.totals.hired

/-- READ_STATUS (R78). -/
def execReadStatus (s : State) : Out := whenUp (request .terminal .readStatus (fun s => answer .ok (statusData s) s)) s

end Sys2Proof.Machine
end

