-- ==== Sys2Proof/Machine/Offers.lean ====
section
/-! DEFINITION. The Offer Table (06): the arrival of an offer, the driver's answers, awards and their races, the zone list and the offer mode. -/

namespace Sys2Proof.Machine

open Sys2Proof

/-! ## The table -/

/-- The final states (R87). -/
def Offer.final (o : Offer) : Bool :=
  match o.state with
  | .offered _ => false
  | .accepting _ => false
  | .awaitingAward _ => false
  | .declined _ => true
  | .expired => true
  | .lost => true
  | .withdrawn => true
  | .abandoned => true

/-- The entry that holds an offer number; no two hold the same (R88). -/
def findOffer (n : Nat) (s : State) : Option Offer := s.offers.entries.find? (fun o => decide (o.number = n))

/-- The entries with the state of the one that holds a number replaced. -/
def setStateOf (n : Nat) (st : OfferState) (entries : List Offer) : List Offer :=
  entries.map (fun o => if o.number = n then { o with state := st } else o)

/-- An entry changes state: its timer goes with the state it leaves, and the notice OFFER is placed (R87, R88). -/
def setOffer (n : Nat) (st : OfferState) (s : State) : State :=
  { s with
    offers := { s.offers with entries := setStateOf n st s.offers.entries }
    terminal := s.terminal.place noticeOffer }

/-- An entry leaves the table, the later entries keeping their order. -/
def dropOffer (n : Nat) (s : State) : State :=
  { s with offers := { s.offers with entries := s.offers.entries.filter (fun o => decide (o.number ≠ n)) } }

/-- The ACCEPT entry is removed from the Uplink Queue (R101). -/
def removeAccept (s : State) : State := { s with radio := s.radio.removeOwned .accept }

/-- A DECLINE queued for an offer number (R99). -/
def declineOffer (n : Nat) (r : DeclineReason) (s : State) : State := { s with radio := s.radio.queueDecline n r }

/-- A JOB EVENT RELEASE queued for a number (R104). -/
def releaseOffer (n : Nat) (s : State) : State := { s with radio := s.radio.queueRelease n s.tariff.clock }

/-! ## Arrival of an offer (R89 to R93) -/

/-- The address test (R89). -/
def offerAddressed (a : Address) (o : OfferFields) (s : State) : Bool :=
  match o.dest with
  | .directed => toCab a
  | .zone => s.offers.zones.contains o.zone

/-- A DIRECTED offer is declined with the reason; a ZONE offer is ignored (R91, R92). -/
def declineDirected (o : OfferFields) (r : DeclineReason) (s : State) : State :=
  match o.dest with
  | .directed => declineOffer o.number r s
  | .zone => s

/-- The fare estimate: absent unless from 0 to 99,999 (R87). -/
def estimateOf (v : Nat) : Option Nat := if v ≤ 99999 then some v else none

/-- The entry made of an offer (R93), with the text as the pool stored it. -/
def offerEntry (o : OfferFields) (text : TextRef) (truncated : Bool) (arrival now : Nat) : Offer :=
  { number := o.number, dest := o.dest, zone := o.zone, stackable := o.stackable, account := o.account, estimate := estimateOf o.estimate,
    text := text, truncated := truncated, deadline := clamp 5 60 o.deadline, arrival := arrival,
    state := .offered (now + clamp 5 60 o.deadline * 1000) }

/-- An offer that has a place is entered (R93). -/
def enterOffer (o : OfferFields) (s : State) : State :=
  { s with
    pool := (allocOffer (.offer o.number) o.text s.pool).1
    offers := { s.offers with
      entries := s.offers.entries ++
        [offerEntry o (allocOffer (.offer o.number) o.text s.pool).2.1 (allocOffer (.offer o.number) o.text s.pool).2.2
          s.offers.nextArrival s.now]
      nextArrival := s.offers.nextArrival + 1 }
    terminal := s.terminal.place noticeOffer }

/-- An entry gives up its blocks and its place (R92, R100). -/
def removeOffer (x : Offer) (s : State) : State :=
  dropOffer x.number { s with pool := releaseBlocks x.text.blocks s.pool }

/-- The place for an offer that passes R91 (R92): a free place, the place of the oldest final entry, or none. -/
def placeOffer (o : OfferFields) (s : State) : State :=
  if s.offers.entries.length < Config.offersMax then enterOffer o s
  else match s.offers.entries.find? Offer.final with
    | some x => enterOffer o (removeOffer x s)
    | none => declineDirected o .tableFull s

/-- The entry filter (R91): the first four conditions with their reasons, then the offer hold for a ZONE offer. -/
def filterOffer (o : OfferFields) (s : State) : State :=
  match entryReason s o.stackable with
  | some r => declineDirected o r s
  | none => if o.dest = .zone ∧ acceptancePending s then s else placeOffer o s

/-- The duplicate test (R90). -/
def takeOffer (a : Address) (o : OfferFields) (s : State) : State :=
  if offerAddressed a o s then
    match findOffer o.number s with
    | some x =>
      match x.state with
      | .declined r => declineOffer o.number r s
      | _ => s
    | none => if numberHeld o.number s then s else filterOffer o s
  else s

/-- An offer that the Sorter does not drop as malformed (R145). -/
def offerWellNumbered (o : OfferFields) : Bool := decide (o.number ≠ 0) && within 1 999 o.zone

/-- OFFER (R89 to R93, R145). -/
def execOffer (a : Address) (o : OfferFields) (s : State) : Out :=
  whenUp (receive (.offer a o) (offerWellNumbered o) (takeOffer a o)) s

/-! ## Answering an offer (R96 to R100) -/

/-- The other OFFERED entries declined OTHER ACCEPTED in offer mode SINGLE (R98). Their DECLINEs are queued from the oldest entry on, an order that
R98 leaves open (log 33). -/
def declineOthers (n : Nat) (s : State) : State :=
  { s with
    offers := { s.offers with
      entries := s.offers.entries.map (fun o => match o.state with
        | .offered _ => if o.number = n then o else { o with state := .declined .otherAccepted }
        | _ => o) }
    radio := s.offers.entries.foldl (fun r o => match o.state with
        | .offered _ => if o.number = n then r else r.queueDecline o.number .otherAccepted
        | _ => r) s.radio }

/-- An ACCEPT that is taken (R97): ACCEPTING with the award timer of 30 s, the ACCEPT entry created, and in SINGLE the others declined. -/
def takeAccept (n : Nat) (s : State) : State :=
  let s1 := setOffer n (.accepting (s.now + 30000)) { s with radio := s.radio.createReserved (.accept n) }
  match s.offers.mode with
  | .single => declineOthers n s1
  | .multi => s1

/-- The Offer Table's taking of ACCEPT (R97). -/
def accept (n : Nat) (s : State) : Reply :=
  match findOffer n s with
  | none => done .notFound s
  | some o =>
    match o.state with
    | .expired => done .tooLate s
    | .offered _ =>
      if acceptancePending s then done .onePending s
      else if offerFits s.duty o.stackable then done .ok (takeAccept n s)
      else done .refusedState s
    | _ => done .refusedState s

/-- ACCEPT (R97, R98). -/
def execAccept (n : Nat) (s : State) : Out := whenUp (request .terminal (.accept n) (accept n)) s

/-- The Offer Table's taking of DECLINE (R99). -/
def decline (n : Nat) (s : State) : Reply :=
  match findOffer n s with
  | none => done .notFound s
  | some o =>
    match o.state with
    | .expired => done .tooLate s
    | .offered _ => done .ok (declineOffer n .driver (setOffer n (.declined .driver) s))
    | _ => done .refusedState s

/-- DECLINE (R99). -/
def execDecline (n : Nat) (s : State) : Out := whenUp (request .terminal (.decline n) (decline n)) s

/-- The Offer Table's taking of DISMISS (R100). -/
def dismiss (n : Nat) (s : State) : Reply :=
  match findOffer n s with
  | none => done .notFound s
  | some o => if o.final then done .ok (removeOffer o s) else done .refusedState s

/-- DISMISS (R100). -/
def execDismiss (n : Nat) (s : State) : Out := whenUp (request .terminal (.dismiss n) (dismiss n)) s

/-- The Offer Table's taking of SET OFFER MODE (R98): SINGLE 0, MULTI 1 (R177). -/
def setOfferMode (v : Nat) (s : State) : Reply :=
  match v with
  | 0 => done .ok { s with offers := { s.offers with mode := .single } }
  | 1 => done .ok { s with offers := { s.offers with mode := .multi } }
  | _ => done .badValue s

/-- SET_OFFER_MODE (R98). -/
def execSetOfferMode (v : Nat) (s : State) : Out := whenUp (request .terminal (.setOfferMode v) (setOfferMode v)) s

/-- An expiry of an offer's deadline timer (R96). -/
def takeDeadline (n : Nat) (s : State) : State :=
  match findOffer n s with
  | some o =>
    match o.state with
    | .offered due => setOffer n .expired (reach due s)
    | _ => s
  | none => s

/-- DEADLINE_EXPIRY (R96): an entry that has left OFFERED does not expire. -/
def execDeadlineExpiry (n : Nat) (s : State) : Out := whenUp (takeDeadline n) s

/-- The instant at which the award timer of an entry expires, while it runs (R102). -/
def Offer.awardDue (o : Offer) : Option Nat :=
  match o.state with
  | .accepting due => some due
  | .awaitingAward due => some due
  | _ => none

/-- An expiry of an offer's award timer (R102). -/
def takeAwardExpiry (n : Nat) (s : State) : State :=
  match (findOffer n s).bind Offer.awardDue with
  | some due => setOffer n .lost (removeAccept (reach due s))
  | none => s

/-- AWARD_TIMER_EXPIRY (R102): an entry in neither ACCEPTING nor AWAITING AWARD has no such timer. -/
def execAwardTimerExpiry (n : Nat) (s : State) : Out := whenUp (takeAwardExpiry n) s

/-! ## Awards (R69, R103 to R106) -/

/-- The slot that the cab's state calls for (R69). -/
def jobSlot (d : DutyUnit) : Option Holder :=
  match d.state with
  | .vacant => some .currentJob
  | .clearing => if d.next.isNone then some .nextJob else none
  | .hired => if d.signedOn ∧ d.next.isNone then some .nextJob else none
  | .offDuty => none
  | .assigned => none

/-- The job record of an awarded offer (R68). -/
def Offer.job (o : Offer) : Job :=
  { number := o.number, zone := o.zone, account := o.account, estimate := o.estimate, text := o.text, truncated := o.truncated }

/-- What the placement of a job does in either slot (R84, R101, R103): the blocks pass, the entry leaves the table, the ACCEPT entry is removed,
and the notices JOB and OFFER are placed. -/
def passJob (o : Offer) (h : Holder) (d : DutyUnit) (s : State) : State :=
  removeAccept (dropOffer o.number
    { s with
      pool := retagBlocks h o.text.blocks s.pool
      duty := d
      terminal := s.terminal.place (noticeJob ||| noticeOffer) })

/-- An award of an accepted offer (R69, R103): placed in a slot with the re-check of R94, or declined by the Duty Unit. -/
def placeJob (o : Offer) (s : State) : State :=
  match jobSlot s.duty with
  | some .currentJob =>
    dutyChanged .duty (passJob o .currentJob { s.duty with current := some o.job, state := .assigned } s)
  | some .nextJob =>
    recheck (refreshStatus .job (passJob o .nextJob { s.duty with next := some o.job } s))
  | _ => releaseOffer o.number (setOffer o.number .abandoned (removeAccept s))

/-- The Offer Table's taking of an AWARD (R103). -/
def takeAward (n : Nat) (s : State) : State :=
  if numberHeld n s then s
  else match findOffer n s with
    | some o => if o.accepted then placeJob o s else releaseOffer n s
    | none => releaseOffer n s

/-- AWARD (R103, R145). -/
def execAward (a : Address) (n : Nat) (s : State) : Out :=
  whenUp (receive (.award a n) (toCab a && decide (n ≠ 0)) (takeAward n)) s

/-- An open entry ended by the dispatch centre: its timer stops and the ACCEPT entry, if it is the accepted one, is removed (R105, R106). -/
def endOffer (o : Offer) (st : OfferState) (s : State) : State :=
  setOffer o.number st (if o.accepted then removeAccept s else s)

/-- The Offer Table's taking of a LOST (R105). -/
def takeLost (n : Nat) (s : State) : State :=
  match findOffer n s with
  | some o => if o.final then s else endOffer o .lost s
  | none => s

/-- LOST (R105, R145). -/
def execLost (a : Address) (n : Nat) (s : State) : Out :=
  whenUp (receive (.lost a n) (toCab a && decide (n ≠ 0)) (takeLost n)) s

/-- The Offer Table's taking of a WITHDRAW that names no open entry (R106): a JOB CANCEL if the number is a job's or the trip's. -/
def withdrawJob (n : Nat) (s : State) : State := if numberHeld n s then cancelJob n s else s

/-- The Offer Table's taking of a WITHDRAW (R106). -/
def takeWithdraw (n : Nat) (s : State) : State :=
  match findOffer n s with
  | some o => if o.final then withdrawJob n s else endOffer o .withdrawn s
  | none => withdrawJob n s

/-- WITHDRAW (R106, R145). -/
def execWithdraw (a : Address) (n : Nat) (s : State) : Out :=
  whenUp (receive (.withdraw a n) (toCab a && decide (n ≠ 0)) (takeWithdraw n)) s

/-- The first part of what the Offer Table does at a FLAG DOWN (R95): an accepted entry becomes ABANDONED, its ACCEPT entry is removed and a
RELEASE is queued for it. -/
def abandonAccepted (s : State) : State :=
  { s with
    offers := { s.offers with
      entries := s.offers.entries.map (fun o => if o.accepted then { o with state := .abandoned } else o) }
    radio := s.offers.entries.foldl (fun r o => if o.accepted then (r.removeOwned .accept).queueRelease o.number s.tariff.clock else r) s.radio
    terminal := if acceptancePending s then s.terminal.place noticeOffer else s.terminal }

/-! ## Zones and the terminal's view (R107, R108) -/

/-- Each zone once, in the order given (R107). -/
def onceEach : List Nat → List Nat
  | [] => []
  | z :: rest => z :: (onceEach rest).filter (fun y => decide (y ≠ z))

/-- The Offer Table's taking of SET ZONES (R107). -/
def setZones (zones : List Nat) (s : State) : Reply :=
  if zones.length ≤ 6 ∧ zones.all (within 1 999) then done .ok { s with offers := { s.offers with zones := onceEach zones } }
  else done .badValue s

/-- SET_ZONES (R107). -/
def execSetZones (zones : List Nat) (s : State) : Out := whenUp (request .terminal (.setZones zones) (setZones zones)) s

/-- The decline reason, present in DECLINED only (R87). -/
def Offer.reason (o : Offer) : Option DeclineReason :=
  match o.state with
  | .declined r => some r
  | _ => none

/-- The instant at which the deadline timer of an entry expires, while it runs (R96). -/
def Offer.deadlineDue (o : Offer) : Option Nat :=
  match o.state with
  | .offered due => some due
  | _ => none

/-- The seconds remaining on a timer as a byte, all ones while it does not run (R177). -/
def remainingByte (now : Nat) (due : Option Nat) : List Byte := optFrom0 1 (due.map (secondsLeft now))

/-- The fields of an offer entry with the seconds remaining on its deadline and on its award timer (R87, R108, R177). -/
def offerData (s : State) (o : Offer) : List Byte :=
  natBytes 2 o.number ++ natBytes 1 (destCode o.dest) ++ natBytes 2 o.zone ++ flagByte o.stackable ++ flagByte o.account ++
  optFrom0 3 o.estimate ++ textBytes (readText s.pool o.text) ++ flagByte o.truncated ++ natBytes 1 o.deadline ++
  natBytes Config.arrivalOrderBytes o.arrival ++ natBytes 1 (offerStateCode o.state) ++ optFrom0 1 (o.reason.map declineCode) ++
  remainingByte s.now o.deadlineDue ++ remainingByte s.now o.awardDue

/-- The read of a position n counted from 1, out of a list of at most `bound` entries (R56, R108, R115, R122). -/
def readPosition {α : Type} (bound n : Nat) (entries : List α) (data : α → List Byte) (s : State) : Reply :=
  if within 1 bound n then
    match entries[n - 1]? with
    | some e => answer .ok (data e) s
    | none => done .notFound s
  else done .badValue s

/-- READ_OFFER (R108). -/
def execReadOffer (n : Nat) (s : State) : Out :=
  whenUp (request .terminal (.readOffer n) (fun s => readPosition 8 n s.offers.entries (offerData s) s)) s

end Sys2Proof.Machine
end

