-- ==== Sys2Proof/Machine/Messages.lean ====
section
/-! DEFINITION. The Message Store (07): arrival of a message, the inbound list, the recently-removed list and the outbound list. -/

namespace Sys2Proof.Machine

open Sys2Proof

/-! ## Arrival of a message (R111 to R114) -/

/-- The address test of a class (R111). -/
def messageAddressed (a : Address) (c : MessageClass) (s : State) : Bool :=
  match a with
  | .cab _ => true
  | .all => decide (c = .broadcast)
  | .zone z => decide (c = .broadcast) && s.offers.zones.contains z

/-- The inbound entry that holds a number (R109). -/
def findInbound (n : Nat) (s : State) : Option Inbound := s.messages.inbound.find? (fun m => decide (m.number = n))

/-- A RECEIPT queued for a message number (R114). -/
def receipt (n : Nat) (st : ReceiptStatus) (s : State) : State := { s with radio := s.radio.queueReceipt n st }

/-- A directed message is answered by a RECEIPT; a FLEET BROADCAST by none (R112, R113). -/
def answerDirected (c : MessageClass) (n : Nat) (st : ReceiptStatus) (s : State) : State :=
  if c = .broadcast then s else receipt n st s

/-- The status that answers a repeat of a message held in the inbound list (R112). -/
def repeatStatus (m : Inbound) : ReceiptStatus := if m.cls = .priority ∧ m.read then .read else .stored

/-- A message stored (R113): at the end of the list, with the notice MESSAGE and, if directed, a RECEIPT STORED. -/
def storeMessage (n : Nat) (c : MessageClass) (pool : List Block) (text : TextRef) (s : State) : State :=
  answerDirected c n .stored
    { s with
      pool := pool
      messages := { s.messages with inbound := s.messages.inbound ++ [⟨n, c, s.tariff.clock, text, false, false⟩] }
      terminal := s.terminal.place noticeMessage }

/-- A message that is no duplicate: stored if the list and then the pool have room, else refused (R113). -/
def roomForMessage (n : Nat) (c : MessageClass) (text : List Byte) (s : State) : State :=
  if s.messages.inbound.length < Config.inboundMax then
    match allocMessage (.inbound n) text s.pool with
    | some (pool, ref) => storeMessage n c pool ref s
    | none => answerDirected c n .full s
  else answerDirected c n .full s

/-- The Message Store's taking of a well-formed message (R111 to R113). -/
def takeMessage (a : Address) (n : Nat) (c : MessageClass) (text : List Byte) (s : State) : State :=
  if messageAddressed a c s then
    match findInbound n s with
    | some m => answerDirected c n (repeatStatus m) s
    | none => if s.messages.removed.contains n then answerDirected c n .stored s else roomForMessage n c text s
  else s

/-- A message that is not malformed: its number is not 0, its class one of the four and its text of 1 to 120 characters (R111). -/
def messageWellFormed (n cls : Nat) (text : List Byte) : Bool :=
  decide (n ≠ 0) && (classOf cls).isSome && within 1 120 text.length

/-- MESSAGE (R111 to R114, R145). -/
def execMessage (a : Address) (n cls : Nat) (text : List Byte) (s : State) : Out :=
  whenUp (receive (.message a n cls text) (messageWellFormed n cls text) (takeMessage a n ((classOf cls).getD .info) text)) s

/-! ## The driver and the inbound list (R115, R116) -/

/-- The fields of an inbound entry (R109, R115). -/
def inboundData (pool : List Block) (m : Inbound) : List Byte :=
  natBytes 2 m.number ++ natBytes 1 (classCode m.cls) ++ clockBytes m.arrival ++ textBytes (readText pool m.text) ++ flagByte m.read ++
    flagByte m.replied

/-- READ_MESSAGE (R115). -/
def execReadMessage (n : Nat) (s : State) : Out :=
  whenUp (request .terminal (.readMessage n) (fun s => readPosition 16 n s.messages.inbound (inboundData s.pool) s)) s

/-- The inbound list with the entry of a number changed. -/
def changeInbound (n : Nat) (f : Inbound → Inbound) (s : State) : State :=
  { s with messages := { s.messages with inbound := s.messages.inbound.map (fun m => if m.number = n then f m else m) } }

/-- The Message Store's taking of MARK READ (R115). -/
def markRead (n : Nat) (s : State) : Reply :=
  match findInbound n s with
  | none => done .notFound s
  | some m =>
    if m.read then done .ok s
    else
      let s1 := changeInbound n (fun x => { x with read := true }) s
      done .ok (if m.cls = .priority then receipt n .read s1 else s1)

/-- MARK_READ (R115). -/
def execMarkRead (n : Nat) (s : State) : Out := whenUp (request .terminal (.markRead n) (markRead n)) s

/-- A number joins the recently-removed list, which first drops its oldest when it holds 8 (R110). -/
def addRemoved (n : Nat) (removed : List Nat) : List Nat :=
  (if removed.length < Config.removedMax then removed else removed.drop (removed.length + 1 - Config.removedMax)) ++ [n]

/-- An inbound entry deleted (R110, R116). -/
def takeDelete (m : Inbound) (s : State) : State :=
  { s with
    pool := releaseBlocks m.text.blocks s.pool
    messages := { s.messages with
      inbound := s.messages.inbound.filter (fun x => decide (x.number ≠ m.number))
      removed := addRemoved m.number s.messages.removed } }

/-- The Message Store's taking of DELETE (R116). -/
def delete (n : Nat) (s : State) : Reply :=
  match findInbound n s with
  | none => done .notFound s
  | some m => if m.cls = .replyRequired ∧ m.replied = false then done .refusedState s else done .ok (takeDelete m s)

/-- DELETE (R116). -/
def execDelete (n : Nat) (s : State) : Out := whenUp (request .terminal (.delete n) (delete n)) s

/-! ## The outbound list (R117 to R122) -/

/-- DELIVERED and FAILED are the resolved states (R117). -/
def Outbound.resolved (o : Outbound) : Bool :=
  match o.state with
  | .waiting => false
  | .queued => false
  | .delivered => true
  | .failed => true

/-- The local number after n, 255 followed by 1 (R117). -/
def nextLocalAfter (n : Nat) : Nat := if n < 255 then n + 1 else 1

/-- The first local number from n on that no entry holds (R117): the list holds at most 6, so seven steps reach one. -/
def freeLocal (outbound : List Outbound) : Nat → Nat → Nat
  | 0, n => n
  | fuel + 1, n => if outbound.any (fun o => decide (o.localNumber = n)) then freeLocal outbound fuel (nextLocalAfter n) else n

/-- The content that a canned code and a text give: one of the two, in range, or neither (R118, R177). -/
def outboundGiven (canned : Nat) (text : List Byte) : Option (Option Nat) :=
  if canned = 0 ∧ within 1 60 text.length then some none
  else if within 1 31 canned ∧ text = [] then some (some canned)
  else none

/-- The outbound list with a place made: of six entries the oldest resolved one is reclaimed; none when all six are unresolved (R118). -/
def roomForOutbound (outbound : List Outbound) : Option (List Outbound) :=
  if outbound.length < Config.outboundMax then some outbound
  else match outbound.find? Outbound.resolved with
    | some o => some (outbound.filter (fun x => decide (x.localNumber ≠ o.localNumber)))
    | none => none

/-- A new outbound entry at the end of the list, queued at once if a general position is free (R118, R120); the reply carries its local
number. -/
def addOutbound (room : List Outbound) (localNumber : Nat) (linked : Option Nat) (content : OutboundContent) (pool : List Block)
    (s : State) : Reply :=
  (queueWaiting
    { s with
      pool := pool
      messages := { s.messages with
        outbound := room ++ [⟨localNumber, linked, content, .waiting⟩]
        nextLocal := nextLocalAfter localNumber } },
   .ok, natBytes 1 localNumber)

/-- The taking of a SEND MESSAGE or REPLY once its content is known to be in range (R118). -/
def takeOutbound (linked : Option Nat) (given : Option Nat) (text : List Byte) (s : State) : Reply :=
  match roomForOutbound s.messages.outbound with
  | none => done .full s
  | some room =>
    let n := freeLocal room 7 s.messages.nextLocal
    match given with
    | some code => addOutbound room n linked (.canned code) s.pool s
    | none =>
      match allocMessage (.outbound n) text s.pool with
      | some (pool, ref) => addOutbound room n linked (.text ref) pool s
      | none => done .full s

/-- The four steps of R118. -/
def sendMessage (linked : Option Nat) (canned : Nat) (text : List Byte) (s : State) : Reply :=
  match outboundGiven canned text with
  | none => done .badValue s
  | some given => takeOutbound linked given text s

/-- SEND_MESSAGE (R118). -/
def execSendMessage (canned : Nat) (text : List Byte) (s : State) : Out :=
  whenUp (request .terminal (.sendMessage canned text) (sendMessage none canned text)) s

/-- The replied flag set when a REPLY has been taken (R119). -/
def markReplied (n : Nat) (r : Reply) : Reply :=
  (if r.2.1 = .ok then changeInbound n (fun x => { x with replied := true }) r.1 else r.1, r.2)

/-- The Message Store's taking of REPLY (R119). -/
def reply (n canned : Nat) (text : List Byte) (s : State) : Reply :=
  match findInbound n s with
  | none => done .notFound s
  | some m => if m.cls = .broadcast then done .refusedState s else markReplied n (sendMessage (some n) canned text s)

/-- REPLY (R119). -/
def execReply (n canned : Nat) (text : List Byte) (s : State) : Out :=
  whenUp (request .terminal (.reply n canned text) (reply n canned text)) s

/-- The fields of an outbound entry: local number, link, content as canned code and text, state (R117, R122; log 13). -/
def outboundData (pool : List Block) (o : Outbound) : List Byte :=
  natBytes 1 o.localNumber ++ optFrom1 2 o.linked ++
  (match o.content with
   | .canned code => natBytes 1 code ++ natBytes 1 0
   | .text ref => natBytes 1 0 ++ textBytes (readText pool ref)) ++
  natBytes 1 (outboundCode o.state)

/-- READ_OUTBOUND (R122). -/
def execReadOutbound (n : Nat) (s : State) : Out :=
  whenUp (request .terminal (.readOutbound n) (fun s => readPosition 6 n s.messages.outbound (outboundData s.pool) s)) s

/-- The outbound entry that holds a local number. -/
def findOutbound (n : Nat) (s : State) : Option Outbound := s.messages.outbound.find? (fun o => decide (o.localNumber = n))

/-- The Message Store's taking of DISMISS OUTBOUND (R122). -/
def dismissOutbound (n : Nat) (s : State) : Reply :=
  match findOutbound n s with
  | none => done .notFound s
  | some o =>
    if o.resolved then
      done .ok { s with messages := { s.messages with outbound := s.messages.outbound.filter (fun x => decide (x.localNumber ≠ n)) } }
    else done .refusedState s

/-- DISMISS_OUTBOUND (R122). -/
def execDismissOutbound (n : Nat) (s : State) : Out := whenUp (request .terminal (.dismissOutbound n) (dismissOutbound n)) s

/-- The blocks of an outbound entry. -/
def Outbound.blocks (o : Outbound) : List Nat :=
  match o.content with
  | .canned _ => []
  | .text ref => ref.blocks

/-- An outbound entry resolved: it gives up its text and keeps a canned code (R117, R121). -/
def Outbound.resolve (st : OutboundState) (o : Outbound) : Outbound :=
  { o with
    state := st
    content := match o.content with
      | .canned code => .canned code
      | .text _ => .text ⟨[], 0⟩ }

/-- The outcome of a DRIVER MESSAGE handed back to the Message Store (R121): DELIVERED or FAILED, its blocks released, OUTBOUND placed. -/
def resolveOutbound (n : Nat) (st : OutboundState) (s : State) : State :=
  match findOutbound n s with
  | none => s
  | some o =>
    { s with
      pool := releaseBlocks o.blocks s.pool
      messages := { s.messages with
        outbound := s.messages.outbound.map (fun x => if x.localNumber = n then x.resolve st else x) }
      terminal := s.terminal.place noticeOutbound }

end Sys2Proof.Machine
end

