-- ==== Sys2Proof/Machine/Trips.lean ====
section
/-! DEFINITION. The Trip Unit (03): the trip commands, the resume window, the closed-trip list, fare totals and the totalizers. -/

namespace Sys2Proof.Machine

open Sys2Proof

/-! ## FLAG DOWN (R6, R39, R40, R63, R95) -/

/-- The band mode that a byte names: AUTO 0, FIXED 1 (R177). -/
def bandModeOf : Nat → Option BandMode
  | 0 => some .auto
  | 1 => some .fixed
  | _ => none

/-- The flag-down band (R6). -/
def flagDownBand (mode : BandMode) (n : Nat) (img : Image) (c : ClockReading) : Nat :=
  match mode with
  | .auto => bandLookup img c
  | .fixed => n

/-- The trip record at a FLAG DOWN (R6, R40). -/
def newTrip (mode : BandMode) (band : Nat) (img : Image) (s : State) : Trip :=
  { phase := .running, mode := mode, flagDownBand := band, band := band, pendingBand := none, progress := 0,
    remaining := (img.band band).initialUnits, flagDownTime := s.tariff.clock, f0 := (img.band band).f0, fare := (img.band band).f0,
    steps := 0, distance := 0, waiting := 0, extras := [],
    job := if s.duty.state = .assigned then s.duty.current.map (fun j => ⟨j.number, false⟩) else none,
    interruptions := 0, saturated := false, speedFault := false, emergency := inEmergency s }

/-- The Duty Unit's move to HIRED (R63): a current job's blocks are released and its slot emptied, with the notice JOB. -/
def hireSlot (s : State) : State :=
  { s with
    pool := releaseBlocks ((s.duty.current.map (fun j => j.text.blocks)).getD []) s.pool
    duty := { s.duty with state := .hired, current := none }
    terminal := if s.duty.current.isSome then s.terminal.place noticeJob else s.terminal }

/-- The Trip Unit's and the Fare Engine's part of a FLAG DOWN that is taken: the record, the evaluation timer and the notice TRIP (R6, R40). -/
def startTrip (mode : BandMode) (n : Nat) (img : Image) (s : State) : State :=
  { (if mode = .auto then lookupMark Config.flagDownFaultIsActive s else s) with
    trip := some (newTrip mode (flagDownBand mode n img s.tariff.clock) img s)
    evalDue := some (s.now + 1000)
    dist := { s.dist with metres := 0 }
    terminal := s.terminal.place noticeTrip }

/-- A FLAG DOWN that is taken, with what the Duty Unit and the Offer Table make of it (R40, R63, R95). -/
def takeFlagDown (mode : BandMode) (n : Nat) (img : Image) (s : State) : State :=
  dutyChanged .duty (abandonAccepted (hireSlot (startTrip mode n img s)))

/-- The values that FLAG DOWN permits: AUTO, or FIXED with a band from 1 to 4 (R39; log 16). -/
def flagDownMode (mode n : Nat) : Option BandMode :=
  match bandModeOf mode with
  | some .auto => some .auto
  | some .fixed => if within 1 4 n then some .fixed else none
  | none => none

/-- The Trip Unit's taking of FLAG DOWN (R39). -/
def flagDown (mode n : Nat) (s : State) : Reply :=
  if s.trip.isSome then done .refusedState s
  else match flagDownMode mode n with
    | none => done .badValue s
    | some m =>
      match s.tariff.active with
      | none => done .noTariff s
      | some i =>
        if s.settings.cab = 0 ∨ s.settings.fleet = 0 ∨ s.settings.k = 0 then done .noIdentity s
        else done .ok (takeFlagDown m n i.image s)

/-- FLAG_DOWN (R39, R40). -/
def execFlagDown (mode n : Nat) (s : State) : Out := whenUp (request .meter (.flagDown mode n) (flagDown mode n)) s

/-! ## STOP, RESUME and the resume window (R16 to R18, R41 to R43) -/

/-- The trip after the partial evaluation of a STOP, which a held fare does not get (R16, R22). -/
def partialOf (t : Trip) (s : State) : State :=
  match s.tariff.active with
  | some i => partialEvaluate i.image t s
  | none => s

/-- A STOP that is taken (R16, R41). -/
def takeStop (t : Trip) (s : State) : State :=
  let p := partialOf t s
  { p with
    trip := p.trip.map (Trip.stopped s.tariff.active)
    evalDue := none
    resumeDue := some (s.now + 60000)
    terminal := p.terminal.place noticeTrip }

/-- The Trip Unit's taking of STOP (R41). -/
def stop (s : State) : Reply :=
  match s.trip with
  | some t => if t.phase = .running then done .ok (takeStop t s) else done .refusedState s
  | none => done .refusedState s

/-- STOP (R41). -/
def execStop (s : State) : Out := whenUp (request .meter .stop stop) s

/-- A RESUME that is taken (R18, R43): the evaluation timer restarts, but for a held fare (R22). -/
def takeResume (t : Trip) (s : State) : State :=
  { s with
    trip := some { t with phase := .running }
    resumeDue := none
    evalDue := if s.tariff.active.isSome then some (s.now + 1000) else none
    terminal := s.terminal.place noticeTrip }

/-- The Trip Unit's taking of RESUME (R43). -/
def resume (s : State) : Reply :=
  match s.trip with
  | none => done .refusedState s
  | some t =>
    match t.phase with
    | .running => done .refusedState s
    | .stopped _ _ => if s.resumeDue.isSome then done .ok (takeResume t s) else done .tooLate s

/-- RESUME (R43). -/
def execResume (s : State) : Out := whenUp (request .meter .resume resume) s

/-- An expiry of the resume window (R42): it closes the window and does nothing else. -/
def takeResumeExpiry (s : State) : State :=
  match s.resumeDue with
  | none => s
  | some due => { reach due s with resumeDue := none }

/-- RESUME_WINDOW_EXPIRY (R42): nothing while the window is closed. -/
def execResumeWindowExpiry (s : State) : Out := whenUp takeResumeExpiry s

/-! ## The closed-trip list (R51 to R55) -/

/-- The entry made of a trip at its CLEAR (R52, R54). -/
def closedEntry (t : Trip) (total : Nat) (s : State) : ClosedTrip :=
  { count := 1, first := t.flagDownTime, last := s.tariff.clock, total := total, extras := tripExtras s.tariff.active t,
    distance := t.distance, job := t.job.map TripJob.number, reported := false, pinned := s.alarm.record.pinIntent, unsent := true }

/-- Two entries folded, a the older (R53). -/
def mergeClosed (a b : ClosedTrip) : ClosedTrip :=
  { count := satAdd 255 a.count b.count, first := a.first, last := b.last, total := satAdd Config.countMax a.total b.total,
    extras := satAdd Config.countMax a.extras b.extras, distance := satAdd Config.countMax a.distance b.distance, job := none,
    reported := false, pinned := false, unsent := true }

/-- The position of the entry that the FARE TOTAL carries, while one is queued (R57). -/
def carriedIndex (s : State) : Option Nat :=
  if s.radio.holds .fareTotal then s.closed.findIdx? (fun c => !c.reported) else none

/-- The positions of the merge candidates: unpinned and not carried (R53). -/
def mergeCandidates (carried : Option Nat) (closed : List ClosedTrip) : List Nat :=
  (List.range closed.length).filter (fun i =>
    ((closed[i]?.map (fun c => !c.pinned)).getD false) && decide (some i ≠ carried))

/-- The two oldest candidates merged at the position of the older (R53). -/
def mergeOldest (carried : Option Nat) (closed : List ClosedTrip) : List ClosedTrip :=
  match mergeCandidates carried closed with
  | i :: j :: _ =>
    match closed[i]?, closed[j]? with
    | some a, some b => (closed.set i (mergeClosed a b)).eraseIdx j
    | _, _ => closed
  | _ => closed

/-- The list with the new entry appended, room being made first when it holds 8 (R52, R53). -/
def appendClosed (carried : Option Nat) (c : ClosedTrip) (closed : List ClosedTrip) : List ClosedTrip :=
  (if closed.length < Config.closedMax then closed else mergeOldest carried closed) ++ [c]

/-- The release of the pin at a return to NORMAL (R55): the pinned entry leaves if it is reported, and else stays unpinned. -/
def releasePin (closed : List ClosedTrip) : List ClosedTrip :=
  closed.filterMap (fun c => if c.pinned then (if c.reported then none else some { c with pinned := false }) else some c)

/-- A FARE TOTAL is created when an unreported entry is held and no FARE TOTAL is (R57). -/
def ensureFareTotal (s : State) : State :=
  if s.closed.any (fun c => !c.reported) then { s with radio := s.radio.createReserved .fareTotal } else s

/-- The carried entry marked reported, and removed unless pinned (R58). -/
def reportCarried : List ClosedTrip → List ClosedTrip
  | [] => []
  | c :: rest => if c.reported then c :: reportCarried rest else if c.pinned then { c with reported := true } :: rest else rest

/-- What the Trip Unit does when its FARE TOTAL, now gone from the queue, is acknowledged (R58). -/
def fareTotalAcknowledged (s : State) : State :=
  match carriedTrip s.closed with
  | none => s
  | some c =>
    ensureFareTotal
      { s with
        closed := reportCarried s.closed
        totals := { s.totals with reported := satAdd Config.countMax s.totals.reported c.total } }

/-- The carried entry's unsent flag cleared: its FARE TOTAL has been wholly transmitted (R59). -/
def markSent : List ClosedTrip → List ClosedTrip
  | [] => []
  | c :: rest => if c.reported then c :: markSent rest else { c with unsent := false } :: rest

/-! ## CLEAR (R29, R44, R54, R60, R64) -/

/-- The totalizers at a CLEAR (R60). -/
def Totals.addTrip (total extras steps : Nat) (x : Totals) : Totals :=
  { x with
    trips := satAdd Config.countMax x.trips 1
    fare := satAdd Config.countMax x.fare total
    extras := satAdd Config.countMax x.extras extras
    steps := satAdd Config.countMax x.steps steps }

/-- A pending image becomes active, with the notice TARIFF ACTIVE (R29). -/
def activatePending (s : State) : State :=
  match s.tariff.pending with
  | none => s
  | some i => noticeMeter noticeTariffActive { s with tariff := { s.tariff with active := some i, pending := none } }

/-- The Duty Unit after a CLEAR (R64). -/
def DutyUnit.afterClear (d : DutyUnit) : DutyUnit :=
  match d.signedOn, d.next with
  | true, some j => { d with state := .assigned, current := some j, next := none, soonClear := none }
  | true, none => { d with state := .vacant, soonClear := none }
  | false, _ => { d with state := .offDuty, soonClear := none }

/-- The blocks of a next job that a CLEAR makes current (R64, R84). -/
def movedBlocks (d : DutyUnit) : List Nat :=
  match d.signedOn, d.next with
  | true, some j => j.text.blocks
  | _, _ => []

/-- The move of the Duty Unit at a CLEAR, with the notice JOB when the next job becomes current (R64, R78, R84). -/
def leaveHired (s : State) : State :=
  { s with
    pool := retagBlocks .currentJob (movedBlocks s.duty) s.pool
    duty := s.duty.afterClear
    terminal := if s.duty.signedOn ∧ s.duty.next.isSome then s.terminal.place noticeJob else s.terminal }

/-- The trip closed and counted (R44, steps 1 to 4). -/
def closeTrip (t : Trip) (total : Nat) (s : State) : State :=
  ensureFareTotal
    { s with
      resumeDue := none
      closed := appendClosed (carriedIndex s) (closedEntry t total s) s.closed
      alarm := { s.alarm with record := { s.alarm.record with pinIntent := false } }
      totals := s.totals.addTrip total (tripExtras s.tariff.active t) t.steps }

/-- The Fare Engine and the record return to IDLE (R5, R44). -/
def endTrip (s : State) : State :=
  { s with trip := none, evalDue := none, dist := { s.dist with metres := 0 }, terminal := s.terminal.place noticeTrip }

/-- A CLEAR that is taken (R44). -/
def takeClear (t : Trip) (total : Nat) (s : State) : State :=
  dutyChanged .duty (leaveHired (endTrip (activatePending (closeTrip t total s))))

/-- The Trip Unit's taking of CLEAR (R44). -/
def clear (s : State) : Reply :=
  match s.trip with
  | none => done .refusedState s
  | some t =>
    match t.phase with
    | .running => done .refusedState s
    | .stopped total _ => done .ok (takeClear t total s)

/-- CLEAR (R44). -/
def execClear (s : State) : Out := whenUp (request .meter .clear clear) s

/-! ## ADD EXTRA (R19, R45) -/

/-- The maximum count of extra n, where it is present; with no active image every n from 1 to 8 is, with 99 (R24, R45). -/
def extraMaximum (active : Option StoredImage) (n : Nat) : Option Nat :=
  match active with
  | some i => if n = 0 then none else i.image.extras[n - 1]?.map Extra.maxCount
  | none => if within 1 8 n then some 99 else none

/-- The count of extra n in a trip. -/
def extraCount (n : Nat) (extras : List (Nat × Nat)) : Nat := ((extras.find? (fun e => decide (e.1 = n))).map Prod.snd).getD 0

/-- The count of extra n raised by one; an extra not yet in the list joins it at the end (R19, R45). -/
def raiseExtra (n : Nat) (extras : List (Nat × Nat)) : List (Nat × Nat) :=
  if extras.any (fun e => decide (e.1 = n)) then extras.map (fun e => if e.1 = n then (e.1, e.2 + 1) else e)
  else extras ++ [(n, 1)]

/-- The stopped total recomputed with the extras as they now are; the uplift is unchanged (R19). -/
def Trip.reprice (active : Option StoredImage) (t : Trip) : Trip :=
  { t with phase := match t.phase with
      | .running => .running
      | .stopped _ uplift => .stopped (stoppedTotal active t) uplift }

/-- An ADD EXTRA that raises a count (R19, R45). -/
def takeExtra (n : Nat) (t : Trip) (s : State) : State :=
  noticeTerminal noticeTrip
    { s with trip := some (Trip.reprice s.tariff.active { t with extras := raiseExtra n t.extras }) }

/-- The Trip Unit's taking of ADD EXTRA (R45). -/
def addExtra (n : Nat) (s : State) : Reply :=
  match s.trip with
  | none => done .refusedState s
  | some t =>
    match extraMaximum s.tariff.active n with
    | none => done .badValue s
    | some most => if most ≤ extraCount n t.extras then done .held s else done .ok (takeExtra n t s)

/-- ADD_EXTRA (R45). -/
def execAddExtra (n : Nat) (s : State) : Out := whenUp (request .meter (.addExtra n) (addExtra n)) s

/-! ## Reads (R46, R56, R61) -/

/-- A flag that is absent in IDLE (R38; log 13, log 15). -/
def optFlag (b : Option Bool) : List Byte := optFrom0 1 (b.map Bool.toNat)

/-- The stopped total and the minimum uplift, present in STOPPED only (R38). -/
def Trip.due (t : Trip) : Option (Nat × Nat) :=
  match t.phase with
  | .running => none
  | .stopped total uplift => some (total, uplift)

/-- The extras list, or its absence in IDLE (R38; log 13). -/
def extrasBytes (e : Option (List (Nat × Nat))) : List Byte :=
  match e with
  | none => natBytes 1 (allOnes 1)
  | some l => natBytes 1 l.length ++ l.flatMap (fun x => natBytes 1 x.1 ++ natBytes 1 x.2)

/-- The fields of the trip record in the order of R38, and whether the resume window is open (R46, R177). -/
def tripData (s : State) : List Byte :=
  natBytes 1 (tripCode s.trip) ++ optFrom0 1 (s.trip.map (fun t => modeCode t.mode)) ++ optFrom1 1 (s.trip.map Trip.flagDownBand) ++
  optFrom1 1 (s.trip.map Trip.band) ++ optFrom1 1 (s.trip.bind Trip.pendingBand) ++ natBytes 4 ((s.trip.map Trip.progress).getD 0) ++
  optFrom1 4 (s.trip.map Trip.remaining) ++ optClockBytes (s.trip.map Trip.flagDownTime) ++ optFrom0 3 (s.trip.map Trip.f0) ++
  optFrom0 3 (s.trip.map Trip.fare) ++ optFrom0 4 (s.trip.map Trip.steps) ++ optFrom0 4 (s.trip.map Trip.distance) ++
  optFrom0 4 (s.trip.map Trip.waiting) ++ extrasBytes (s.trip.map Trip.extras) ++ optFrom0 4 ((s.trip.bind Trip.due).map Prod.fst) ++
  optFrom0 3 ((s.trip.bind Trip.due).map Prod.snd) ++ optFrom1 2 ((s.trip.bind Trip.job).map TripJob.number) ++
  optFlag ((s.trip.bind Trip.job).map TripJob.cancelled) ++ optFrom0 1 (s.trip.map Trip.interruptions) ++
  optFlag (s.trip.map Trip.saturated) ++ optFlag (s.trip.map Trip.speedFault) ++ optFlag (s.trip.map Trip.emergency) ++
  flagByte s.resumeDue.isSome

/-- READ_TRIP on either port (R46). -/
def execReadTrip (p : Port) (s : State) : Out := whenUp (request p (.readTrip p) (fun s => answer .ok (tripData s) s)) s

/-- The fields of a closed-trip entry (R51, R56). -/
def closedData (c : ClosedTrip) : List Byte :=
  natBytes 1 c.count ++ clockBytes c.first ++ clockBytes c.last ++ natBytes 4 c.total ++ natBytes 4 c.extras ++ natBytes 4 c.distance ++
    optFrom1 2 c.job ++ flagByte c.reported ++ flagByte c.pinned ++ flagByte c.unsent

/-- READ_CLOSED (R56). -/
def execReadClosed (n : Nat) (s : State) : Out :=
  whenUp (request .meter (.readClosed n) (fun s => readPosition 8 n s.closed closedData s)) s

/-- The eight totalizers (R60, R61). -/
def totalsData (x : Totals) : List Byte :=
  natBytes 4 x.distance ++ natBytes 4 x.hired ++ natBytes 4 x.trips ++ natBytes 4 x.fare ++ natBytes 4 x.extras ++ natBytes 4 x.steps ++
    natBytes 4 x.interruptions ++ natBytes 4 x.reported

/-- READ_TOTALS (R61). -/
def execReadTotals (s : State) : Out := whenUp (request .meter .readTotals (fun s => answer .ok (totalsData s.totals) s)) s

end Sys2Proof.Machine
end

