-- ==== Sys2Proof/Machine/Emergency.lean ====
section
/-! DEFINITION. The Alarm Unit (08): the alarm lines, the emergency record and its states, the beacon, and the ALERT it makes. -/

namespace Sys2Proof.Machine

open Sys2Proof

/-! ## The ALERT (R138 to R140) -/

/-- An ALERT is made: while the link is UP its entry is created or refreshed, and while it is LOST the entry is removed and the alert sent blind
with the status given (R138, R139, R140). So it is after a start too, where R164 speaks of an ALERT of a continuing emergency that waits in the queue: a
choice between R164 and R139, R141 and R163 (log 36). -/
def makeAlert (cancelled : Bool) (status : Nat) (s : State) : State :=
  match s.radio.link with
  | .lost => sendBlind status { s with radio := s.radio.removeOwned .alert }
  | .up => { s with radio := s.radio.refreshReserved (.alert cancelled) }
  | .slotTooShort => { s with radio := s.radio.refreshReserved (.alert cancelled) }

/-! ## The beacon (R135, R136) -/

/-- The values of a beacon set, from the installation settings (R135). -/
def beaconSetting (st : Settings) (b : BeaconSet) : BeaconSetting :=
  match b with
  | .urgent => st.urgent
  | .sustained => st.sustained

/-- A cycle that starts at an instant, under the set in force, held if the hold count is above 0 (R135, R136). -/
def newCycle (start : Nat) (s : State) : BeaconCycle :=
  { count := (beaconSetting s.settings s.alarm.record.beaconSet).count
    spacing := (beaconSetting s.settings s.alarm.record.beaconSet).spacing
    space := (beaconSetting s.settings s.alarm.record.beaconSet).space
    held := decide (0 < s.alarm.record.hold)
    nextBurst := 1
    due := start }

/-- The start of a cycle (R135, R136): its values are fixed, and the hold count falls by one if it is held. The position stands at the
first place of the mark, whose burst falls due at the same instant (log 17). -/
def startCycle (start : Nat) (s : State) : State :=
  { s with alarm := { s.alarm with
    cycle := some (newCycle start s)
    record := { s.alarm.record with position := some (1, .mark), hold := s.alarm.record.hold - 1 } } }

/-- The beacon position after the next burst of a cycle has fallen due: the mark ends at its last burst (R135). -/
def BeaconCycle.positionAfter (c : BeaconCycle) : Nat × BeaconPhase := (c.nextBurst, if c.nextBurst < c.count then .mark else .space)

/-- The cycle after its next burst: the next burst one spacing later, or, after the last, the end of the space (R135). -/
def BeaconCycle.advance (c : BeaconCycle) : BeaconCycle :=
  if c.nextBurst < c.count then { c with nextBurst := c.nextBurst + 1, due := c.due + c.spacing * 1000 }
  else { c with due := c.due + c.space * 1000 }

/-- The next burst of a cycle falls due: it is made unless the cycle is held, and the position advances either way (R135, R136). -/
def burst (c : BeaconCycle) (s : State) : State :=
  let made := if c.held then s else makeAlert false (emergencyCode s.alarm.record.state) s
  { made with alarm := { made.alarm with
    cycle := some c.advance
    record := { made.alarm.record with position := some c.positionAfter } } }

/-- A cycle that begins now with its first burst at once (R127, R130, R141). -/
def beginMark (s : State) : State := burst (newCycle s.now s) (startCycle s.now s)

/-- The beacon is in a mark. -/
def inMark (s : State) : Bool :=
  match s.alarm.record.position with
  | some (_, .mark) => true
  | some (_, .space) => false
  | none => false

/-- A change of the beacon set: a mark in progress keeps its count and spacing and is followed by the space of the new set (R130, R133;
log 17). -/
def changeSet (b : BeaconSet) (s : State) : State :=
  { s with alarm := { s.alarm with
    record := { s.alarm.record with beaconSet := b }
    cycle :=
      if s.alarm.record.beaconSet ≠ b ∧ inMark s then s.alarm.cycle.map (fun c => { c with space := (beaconSetting s.settings b).space })
      else s.alarm.cycle } }

/-- The instant at which the beacon timer expires in a given part of the cycle. -/
def beaconDue (mark : Bool) (s : State) : Option BeaconCycle :=
  if inEmergency s ∧ inMark s = mark ∧ s.alarm.record.position.isSome then s.alarm.cycle else none

/-- The end of the space: a new cycle starts (R135, R136). -/
def takeCycleStart (s : State) : State :=
  match beaconDue false s with
  | some c => startCycle c.due (reach c.due s)
  | none => s

/-- BEACON_CYCLE_START (R135, R136): nothing unless a space runs. -/
def execBeaconCycleStart (s : State) : Out := whenUp takeCycleStart s

/-- A burst of the mark falls due (R135). -/
def takeBurst (s : State) : State :=
  match beaconDue true s with
  | some c => burst c (reach c.due s)
  | none => s

/-- BEACON_BURST (R135): nothing unless a mark runs. -/
def execBeaconBurst (s : State) : Out := whenUp takeBurst s

/-! ## A press (R125, R127 to R130) -/

/-- A slot transmission in progress is cut off: KEY is released at once and the entry goes as R128 lays down. A blind transmission is not cut
off (R127, R139). -/
def cutOff (s : State) : State :=
  match s.radio.tx.map Transmission.kind with
  | some (.entry n) => releaseKey { s with radio := s.radio.settleEntry n .ready }
  | some .reservationRequest => releaseKey s
  | some .blind => s
  | none => s

/-- The record, the cancel window, the saved copy and the levels, and the trip's mark, as an emergency begins (R127, R129, R48). -/
def enterEmergency (s : State) : State :=
  { s with
    alarm := { s.alarm with
      record := { s.alarm.record with
        state := .alerting, presses := 1, startTime := some s.tariff.clock, cancelOpen := true, beaconSet := .urgent, hold := 0
        pinIntent := s.alarm.record.pinIntent || s.trip.isSome }
      cancelDue := some (s.now + 20000)
      saved := some s.radio.levels }
    radio := { s.radio with levels := Levels.zero }
    trip := s.trip.map (fun t => { t with emergency := true }) }

/-- A press taken in NORMAL (R127). -/
def beginEmergency (s : State) : State := noticeEmergency (beginMark (recheck (enterEmergency (cutOff s))))

/-- The record at a press taken in ALERTING or SEEN (R130). -/
def escalateRecord (s : State) : State :=
  { s with alarm := { s.alarm with
    record := { s.alarm.record with state := .alerting, presses := min (s.alarm.record.presses + 1) 15, hold := 0 } } }

/-- A press taken in ALERTING or SEEN (R130): a mark runs on, a space ends at once with an URGENT cycle. -/
def escalate (s : State) : State :=
  noticeEmergency
    (if inMark s then changeSet .urgent (escalateRecord s) else beginMark (changeSet .urgent (escalateRecord s)))

/-- The Alarm Unit takes one press from the latch, which it clears (R125). -/
def takePress (s : State) : State :=
  if inEmergency s then escalate { s with alarm := { s.alarm with latch := false } }
  else beginEmergency { s with alarm := { s.alarm with latch := false } }

/-! ## The alarm lines (R123, R124) -/

/-- The active level of a sensitivity (R123). -/
def activeLevel : Sensitivity → Option Level
  | .falling => some .low
  | .rising => some .high
  | .both => none
  | .lowHeld => some .low

/-- A line that reaches a level after standing at the other gives a press if it is armed, is not stuck and its sensitivity calls for one
(R123, R124). -/
def linePresses (sens : Sensitivity) (line : LineState) (reached : Option Level) : Bool :=
  match reached with
  | none => false
  | some l =>
    line.armed && !line.stuck && line.level.isSome && decide (line.level ≠ some l) &&
      ((activeLevel sens).isNone || decide (activeLevel sens = some l))

/-- A line has reached a level. -/
def LineState.reached (line : LineState) (l : Option Level) : LineState := { line with level := l.or line.level }

/-- The levels that the lines reach at one instant (R123, R125): a press from either line, or from both together, is one press. -/
def takeLevels (l0 l1 : Option Level) (s : State) : State :=
  let reached := { s with alarm := { s.alarm with line0 := s.alarm.line0.reached l0, line1 := s.alarm.line1.reached l1 } }
  if linePresses s.settings.sens0 s.alarm.line0 l0 || linePresses s.settings.sens1 s.alarm.line1 l1 then
    takePress { reached with alarm := { reached.alarm with latch := true } }
  else reached

/-- ALARM_LINE_LEVEL (R123, R125, R127, R130). -/
def execAlarmLineLevel (l0 l1 : Option Level) (s : State) : Out := whenUp (takeLevels l0 l1) s

/-- The state of a line. -/
def lineState (line : AlarmLine) (s : State) : LineState :=
  match line with
  | .alm0 => s.alarm.line0
  | .alm1 => s.alarm.line1

/-- The sensitivity of a line. -/
def lineSensitivity (line : AlarmLine) (s : State) : Sensitivity :=
  match line with
  | .alm0 => s.settings.sens0
  | .alm1 => s.settings.sens1

/-- Replacing the state of a line. -/
def setLine (line : AlarmLine) (v : LineState) (s : State) : State :=
  match line with
  | .alm0 => { s with alarm := { s.alarm with line0 := v } }
  | .alm1 => { s with alarm := { s.alarm with line1 := v } }

/-- A line that has stood 50 ms at a level arms there: at its inactive level, or under BOTH at either (R123). A stuck line so ends being
stuck (R124). -/
def takeArmed (line : AlarmLine) (level : Level) (s : State) : State :=
  if activeLevel (lineSensitivity line s) = some level then s
  else if (lineState line s).armed ∧ (lineState line s).stuck = false then s
  else setLine line ⟨some level, true, false⟩ s

/-- LINE_ARMED (R123, R124): nothing at the active level or for a line already armed. -/
def execLineArmed (line : AlarmLine) (level : Level) (s : State) : Out := whenUp (takeArmed line level) s

/-- A line can be found to have stood at its active level: it has one, and has reached no other (R124). -/
def standsActive (line : AlarmLine) (s : State) : Bool :=
  (activeLevel (lineSensitivity line s)).isSome &&
  ((lineState line s).level.isNone || decide ((lineState line s).level = activeLevel (lineSensitivity line s)))

/-- A line has stood 60 s at its active level (R124): one fault entry, and the line is stuck and no longer armed. -/
def takeStuck (line : AlarmLine) (s : State) : State :=
  if standsActive line s ∧ (lineState line s).stuck = false then
    placeFault .alarmLineStuck (tripActive s) (setLine line ⟨activeLevel (lineSensitivity line s), false, true⟩ s)
  else s

/-- ALARM_LINE_STUCK (R124): nothing under BOTH, for a line already stuck or for one that stands at its inactive level. -/
def execAlarmLineStuck (line : AlarmLine) (s : State) : Out := whenUp (takeStuck line) s

/-! ## Leaving the emergency (R131 to R134) -/

/-- The return to NORMAL (R131, R55). -/
def returnToNormal (s : State) : State :=
  noticeEmergency
    { s with
      alarm := { s.alarm with
        record := { s.alarm.record with
          state := .normal, cancelOpen := false, beaconSet := .urgent, position := none, hold := 0, pinIntent := false }
        cancelDue := none
        cycle := none
        saved := none }
      radio := { s.radio with levels := s.alarm.saved.getD s.radio.levels }
      closed := releasePin s.closed }

/-- The Alarm Unit's taking of ALARM CANCEL (R132, R140). -/
def alarmCancel (s : State) : Reply :=
  match s.alarm.record.state with
  | .normal => done .refusedState s
  | .alerting => if s.alarm.record.cancelOpen then done .ok (makeAlert true 3 (returnToNormal s)) else done .tooLate s
  | .seen => done .tooLate s

/-- ALARM_CANCEL (R132). -/
def execAlarmCancel (s : State) : Out := whenUp (request .terminal .alarmCancel alarmCancel) s

/-- An expiry of the cancel window (R132): it clears the open flag and does nothing else. -/
def takeCancelExpiry (s : State) : State :=
  match s.alarm.cancelDue with
  | none => s
  | some due =>
    { reach due s with
      alarm := { s.alarm with cancelDue := none, record := { s.alarm.record with cancelOpen := false } } }

/-- CANCEL_WINDOW_EXPIRY (R132): nothing while the window is closed. -/
def execCancelWindowExpiry (s : State) : Out := whenUp takeCancelExpiry s

/-- The Alarm Unit's taking of an ALERT SEEN (R133). -/
def takeAlertSeen (s : State) : State :=
  if s.alarm.record.state = .alerting then
    let seen := changeSet .sustained s
    noticeEmergency
      { seen with alarm := { seen.alarm with
        cancelDue := none
        record := { seen.alarm.record with state := .seen, cancelOpen := false } } }
  else s

/-- ALERT_SEEN (R133, R145): ignored unless it names this cab. -/
def execAlertSeen (a : Address) (s : State) : Out := whenUp (receive (.alertSeen a) (toCab a) takeAlertSeen) s

/-- The Alarm Unit's taking of a STAND DOWN (R134). -/
def takeStandDown (s : State) : State :=
  if inEmergency s then
    let s1 := returnToNormal s
    { s1 with radio := s1.radio.removeOwned .alert }
  else s

/-- STAND_DOWN (R134, R145): ignored unless it names this cab. -/
def execStandDown (a : Address) (s : State) : Out := whenUp (receive (.standDown a) (toCab a) takeStandDown) s

/-- The Alarm Unit's taking of a BEACON HOLD (R136). -/
def takeBeaconHold (n : Nat) (s : State) : State :=
  if inEmergency s then { s with alarm := { s.alarm with record := { s.alarm.record with hold := min n 15 } } } else s

/-- BEACON_HOLD (R136, R145): ignored unless it names this cab. -/
def execBeaconHold (a : Address) (n : Nat) (s : State) : Out := whenUp (receive (.beaconHold a n) (toCab a) (takeBeaconHold n)) s

/-! ## READ EMERGENCY (R142) -/

/-- The alert status of an entry held: of one whose owner has removed it during its transmission, that of the payload going out (R134), else as
the next send would build it (R138; log 13). -/
def entryAlertStatus (s : State) (e : Entry) : Nat :=
  match e.content with
  | .alert cancelled => if e.leaving then (e.payload.headD 0).toNat / 64 else alertStatus cancelled s
  | _ => 0

/-- The byte that READ EMERGENCY gives for the ALERT entry: 0 when none is held (R177). -/
def alertEntryByte (s : State) : List Byte :=
  natBytes 1 (((s.radio.queue.find? (fun e => decide (e.kind = .alert))).map (entryAlertStatus s)).getD 0)

/-- The fields of the emergency record in the order of R126, and what R142 adds. -/
def emergencyData (s : State) : List Byte :=
  natBytes 1 (emergencyCode s.alarm.record.state) ++ natBytes 1 s.alarm.record.presses ++ optClockBytes s.alarm.record.startTime ++
  flagByte s.alarm.record.cancelOpen ++ natBytes 1 (beaconSetCode s.alarm.record.beaconSet) ++
  optFrom1 1 (s.alarm.record.position.map Prod.fst) ++ optFrom0 1 (s.alarm.record.position.map (fun p => phaseCode p.2)) ++
  natBytes 1 s.alarm.record.hold ++ flagByte s.alarm.record.pinIntent ++ remainingByte s.now s.alarm.cancelDue ++ alertEntryByte s ++
  flagByte s.alarm.line0.stuck ++ flagByte s.alarm.line1.stuck

/-- READ_EMERGENCY (R142). -/
def execReadEmergency (s : State) : Out :=
  whenUp (request .meter .readEmergency (fun s => answer .ok (emergencyData s) s)) s

end Sys2Proof.Machine
end

