-- ==== Sys2Proof/Machine/Radio.lean ====
section
/-! DEFINITION. The Uplink Scheduler and the Air Framer (09): CYCLE HEAD with acknowledgement and retry, link state, the slots, the ends of
transmissions, dropped frames, and the Terminal Port's levels and position fix. -/

namespace Sys2Proof.Machine

open Sys2Proof

/-! ## Outcomes handed to the owners (R161, R162) -/

/-- An entry leaves the queue. -/
def dropEntry (arrival : Nat) (s : State) : State :=
  { s with radio := { s.radio with queue := s.radio.queue.filter (fun e => decide (e.arrival ≠ arrival)) } }

/-- The acknowledgement of an ACCEPT (R101): its offer entry in ACCEPTING becomes AWAITING AWARD, with the award timer running on. -/
def acceptAcknowledged (n : Nat) (s : State) : State :=
  match findOffer n s with
  | some o =>
    match o.state with
    | .accepting due => setOffer n (.awaitingAward due) s
    | _ => s
  | none => s

/-- The acknowledgement of a STATUS (R75): a failed-job-event record that its transmission carried is cleared, with the notice DUTY (R78). -/
def statusAcknowledged (carried : Bool) (s : State) : State :=
  if carried && s.duty.failedEvent.isSome then noticeTerminal noticeDuty { s with duty := { s.duty with failedEvent := none } }
  else s

/-- The owner of an acknowledged entry, which has left the queue, is told (R161); a freed general position is offered to the Message Store
(R154). -/
def ownerAcknowledged (e : Entry) (s : State) : State :=
  match e.content with
  | .alert _ => s
  | .accept n => acceptAcknowledged n s
  | .jobEvent _ _ _ => queueWaiting s
  | .fareTotal => fareTotalAcknowledged s
  | .receipt _ _ => queueWaiting s
  | .status _ => statusAcknowledged e.carriesFailed s
  | .decline _ _ => queueWaiting s
  | .driverMessage n => queueWaiting (resolveOutbound n .delivered s)

/-- A failed JOB EVENT (R76): the Duty Unit records it, places DUTY and replaces the STATUS content. -/
def jobEventFailed (k : JobEventKind) (n : Nat) (s : State) : State :=
  refreshStatus .jobEventFailed (noticeTerminal noticeDuty { s with duty := { s.duty with failedEvent := some ⟨k, n⟩ } })

/-- The owner of an entry that failed at its retry limit, and has left the queue, is told (R162); a freed general position is offered to the
Message Store (R154). -/
def ownerFailed (e : Entry) (s : State) : State :=
  match e.content with
  | .alert _ => s
  | .accept _ => s
  | .jobEvent k n _ => queueWaiting (jobEventFailed k n s)
  | .fareTotal => s
  | .receipt _ _ => queueWaiting s
  | .status _ => s
  | .decline _ _ => queueWaiting s
  | .driverMessage n => queueWaiting (resolveOutbound n .failed s)

/-- The retry limits (R151). -/
def retryLimit : Kind → Option Nat
  | .alert => none
  | .accept => none
  | .jobEvent => some 5
  | .fareTotal => none
  | .receipt => some 3
  | .status => some 5
  | .decline => some 2
  | .driverMessage => some 5

/-- The retry count exceeds the limit of the kind (R162). -/
def overLimit (k : Kind) (retry : Nat) : Bool :=
  match retryLimit k with
  | some limit => decide (limit < retry)
  | none => false

/-- The entry of an arrival order. -/
def findEntry (arrival : Nat) (s : State) : Option Entry := s.radio.queue.find? (fun e => decide (e.arrival = arrival))

/-- The queue with the entry of an arrival order changed. -/
def changeEntry (arrival : Nat) (f : Entry → Entry) (s : State) : State :=
  { s with radio := { s.radio with queue := s.radio.queue.map (fun e => if e.arrival = arrival then f e else e) } }

/-- An entry of which a send was not acknowledged, its retry count raised, with a backoff (R162): at 0 it is READY at once. -/
def Entry.backOff (backoff : Nat) (e : Entry) : Entry :=
  { e with retry := e.retry + 1, backoff := backoff, state := if backoff = 0 then .ready else .backoff }

/-- The backoff drawn after a rise of the retry count to r: from 0 to 2^k − 1, k the smaller of r and 4 (R162; log 8). -/
def drawBackoff (r : Nat) (s : State) : Nat := Config.draw s.draws % 2 ^ min r 4

/-- An entry not acknowledged (R162): an ALERT is READY at once, one past its limit fails, and every other backs off. -/
def retryEntry (e : Entry) (s : State) : State :=
  if e.kind = .alert then changeEntry e.arrival (Entry.backOff 0) s
  else if overLimit e.kind (e.retry + 1) then ownerFailed e (dropEntry e.arrival s)
  else changeEntry e.arrival (Entry.backOff (drawBackoff (e.retry + 1) s)) { s with draws := s.draws + 1 }

/-- The entry of an arrival order passes through R162 if it is still AWAITING ACK. -/
def notAcknowledged (arrival : Nat) (s : State) : State :=
  match findEntry arrival s with
  | some e => if e.state = .awaitingAck then retryEntry e s else s
  | none => s

/-- An entry of the acknowledgement list (R161): it acknowledges the entry in AWAITING ACK that holds its sequence, if it names this cab. -/
def takeAck (s : State) (ack : Nat × Nat) : State :=
  if ack.1 = s.settings.cab then
    match s.radio.queue.find? (fun e => decide (e.state = .awaitingAck) && decide (e.seq = some ack.2)) with
    | some e => ownerAcknowledged e (dropEntry e.arrival s)
    | none => s
  else s

/-! ## CYCLE HEAD (R146 to R150, R157, R161) -/

/-- A head as it is taken: addressed to ALL (R145), with every field in its range (R146). -/
def headValid (a : Address) (h : HeadFields) : Bool :=
  decide (a = .all) && within 0 255 h.cycle && within 1 12 h.slots && within 40 400 h.ts && within 60 1000 h.tl &&
  decide (h.reservations.length ≤ 4) && h.reservations.all (within 1 4095) &&
  decide (h.acks.length ≤ 8) && h.acks.all (fun p => within 1 4095 p.1 && within 0 15 p.2)

/-- The head shows that one has been missed (R148). -/
def missedHead (h : HeadFields) (s : State) : Bool :=
  match s.radio.lastCycle with
  | some last => decide (h.cycle ≠ (last + 1) % 256)
  | none => false

/-- An entry in BACKOFF at a head: its backoff falls by one, and at 0 it is READY (R161). -/
def Entry.lower (e : Entry) : Entry :=
  if e.state = .backoff then
    if e.backoff ≤ 1 then { e with backoff := 0, state := .ready } else { e with backoff := e.backoff - 1 }
  else e

/-- The lowering of every backoff at a head (R161). -/
def lowerBackoffs (s : State) : State := { s with radio := { s.radio with queue := s.radio.queue.map Entry.lower } }

/-- The entries in AWAITING ACK, by arrival order. -/
def awaitingEntries (s : State) : List Nat :=
  (s.radio.queue.filter (fun e => decide (e.state = .awaitingAck))).map Entry.arrival

/-- Steps 1 and 2 of R146: backoffs are lowered, the acknowledgements taken unless a head was missed, and every entry that stays in
AWAITING ACK is not acknowledged (R148, R161, R162; log 19). -/
def settleAcks (h : HeadFields) (s : State) : State :=
  (awaitingEntries s).foldl (fun x n => notAcknowledged n x)
    ((if missedHead h s then [] else h.acks).foldl takeAck (lowerBackoffs s))

/-- The link state that a head leads to (R149, R150): SLOT TOO SHORT when the frame of some entry fits neither kind of slot (log 29). -/
def linkAtHead (h : HeadFields) (s : State) : LinkState :=
  if s.radio.queue.any (fun e => !(fitsSlot s (frameSize s e.kind) h.ts || fitsSlot s (frameSize s e.kind) h.tl)) then .slotTooShort
  else .up

/-- A link state, with the notice LINK at a change (R149). -/
def setLink (l : LinkState) (s : State) : State :=
  if s.radio.link = l then s else noticeTerminal noticeLink { s with radio := { s.radio with link := l } }

/-- The slot plan of a head, which ended now, with the contention slot drawn (R147, R157; log 8). -/
def planOf (h : HeadFields) (s : State) : Plan :=
  { headEnd := s.now, slots := h.slots, ts := h.ts, tl := h.tl, grants := h.reservations, drawn := Config.draw s.draws % h.slots,
    contentionDone := false, nextReserved := 0 }

/-- Steps 4 and 5 of R146: the plan, the cycle number and the grant record. -/
def openCycle (h : HeadFields) (s : State) : State :=
  { s with
    draws := s.draws + 1
    radio := { s.radio with
      linkDue := some (s.now + 10000)
      plan := some (planOf h s)
      lastCycle := some h.cycle
      grantedBefore := s.radio.grantedNow
      grantedNow := h.reservations.contains s.settings.cab } }

/-- A valid head taken (R146). -/
def takeHead (h : HeadFields) (s : State) : State :=
  let settled := settleAcks h s
  openCycle h (setLink (linkAtHead h settled) settled)

/-- CYCLE_HEAD (R146 to R150, R157, R161, R162). -/
def execCycleHead (a : Address) (h : HeadFields) (s : State) : Out := whenUp (receive (.cycleHead a h) (headValid a h) (takeHead h)) s

/-- A backoff of one cycle ends (R161; log 21). While the link is LOST no backoff is lowered (R149). -/
def takeBackoffEnd (arrival : Nat) (s : State) : State :=
  match findEntry arrival s with
  | some e => if e.state = .backoff ∧ e.backoff ≤ 1 ∧ s.radio.link ≠ .lost then changeEntry arrival Entry.lower s else s
  | none => s

/-- BACKOFF_END (R149, R161): nothing for an entry not in the last cycle of its backoff, and nothing while the link is LOST. -/
def execBackoffEnd (arrival : Nat) (s : State) : Out := whenUp (takeBackoffEnd arrival) s

/-- The retry count of an entry has exceeded its limit, or does so with the send that stands unacknowledged (R162; log 21). -/
def limitReached (e : Entry) : Bool :=
  overLimit e.kind e.retry || (decide (e.state = .awaitingAck) && overLimit e.kind (e.retry + 1))

/-- An entry past its retry limit is removed and its owner told (R162). -/
def takeRetryLimit (arrival : Nat) (s : State) : State :=
  match findEntry arrival s with
  | some e => if limitReached e then ownerFailed e (dropEntry arrival s) else s
  | none => s

/-- RETRY_LIMIT_REACHED (R162): nothing for an entry within its limit. -/
def execRetryLimitReached (arrival : Nat) (s : State) : Out := whenUp (takeRetryLimit arrival) s

/-! ## Link lost (R149) -/

/-- A transmission of a slot is in progress. -/
def slotTransmission (s : State) : Bool :=
  match s.radio.tx.map Transmission.kind with
  | some (.entry _) => true
  | some .reservationRequest => true
  | some .blind => false
  | none => false

/-- An entry when the link becomes LOST: from AWAITING ACK to READY, its sequence and retry count kept (R149). -/
def Entry.loseLink (e : Entry) : Entry := if e.state = .awaitingAck then { e with state := .ready, backoff := 0 } else e

/-- The link becomes LOST (R149). -/
def loseLink (s : State) : State :=
  setLink .lost
    { s with radio := { s.radio with
      linkDue := none, lastCycle := none, plan := none, grantedNow := false, grantedBefore := false
      queue := s.radio.queue.map Entry.loseLink } }

/-- An expiry of the link timer (R149); no slot transmission is then in progress. -/
def takeLinkLost (s : State) : State :=
  match s.radio.linkDue with
  | none => s
  | some due => if slotTransmission s then s else loseLink (reach due s)

/-- LINK_LOST (R149): nothing while the link timer is stopped. -/
def execLinkLost (s : State) : Out := whenUp takeLinkLost s

/-! ## The slots (R157 to R160) -/

/-- The instant at which the drawn contention slot starts (R147). -/
def Plan.contentionStart (p : Plan) : Nat := p.headEnd + p.drawn * p.ts

/-- The instant at which reserved slot j starts (R147). -/
def Plan.reservedStart (j : Nat) (p : Plan) : Nat := p.headEnd + p.slots * p.ts + j * p.tl

/-- Replacing the slot plan. -/
def setPlan (p : Plan) (s : State) : State := { s with radio := { s.radio with plan := some p } }

/-- The frame of a RESERVATION REQUEST: kind 9, sequence 0, the pending count in the flags, 9 bytes of fill (R159, R176). -/
def requestFrame (s : State) : List Byte := uplinkFrame s 9 0 (pendingCount none s) (List.replicate 9 0)

/-- The conditions of a RESERVATION REQUEST besides the want of a candidate (R159). One is sent in every cycle in which they hold, which they do
again in the cycle after one that was not granted (log 32). -/
def wantsReservation (ts : Nat) (s : State) : Bool :=
  decide (1 ≤ pendingCount none s) && !s.radio.grantedNow && !s.radio.grantedBefore && fitsSlot s 18 ts

/-- What goes out in the drawn contention slot (R157, R159, R160): the first of the candidates, else a RESERVATION REQUEST, else nothing. -/
def sendContention (ts : Nat) (s : State) : State :=
  if identitySet s then
    match firstOf s.radio.levels (contentionCandidates s ts) with
    | some e => sendEntry e s
    | none => if wantsReservation ts s then transmit .reservationRequest (requestFrame s) s else s
  else s

/-- The drawn contention slot starts (R157). A slot whose start the time base has passed is over: a frame goes out at the start of its slot or not
at all (R147, R160). -/
def takeContention (s : State) : State :=
  match s.radio.plan with
  | none => s
  | some p =>
    if p.contentionDone ∨ s.radio.tx.isSome ∨ p.contentionStart < s.now then s
    else sendContention p.ts (setPlan { p with contentionDone := true } (reach p.contentionStart s))

/-- CONTENTION_SLOT (R157, R159): nothing without a plan whose drawn slot is still to start. -/
def execContentionSlot (s : State) : Out := whenUp takeContention s

/-- What goes out in a reserved slot granted to this cab (R158, R160). -/
def sendReserved (tl : Nat) (s : State) : State :=
  if identitySet s then
    match firstOf s.radio.levels (reservedCandidates s tl) with
    | some e => sendEntry e s
    | none => s
  else s

/-- A reserved slot still to come is granted to this cab (R147, R158). -/
def reservedGranted (j : Nat) (p : Plan) (s : State) : Bool :=
  decide (p.nextReserved ≤ j) && decide (p.grants[j]? = some s.settings.cab)

/-- A reserved slot granted to this cab starts (R158), unless the time base has passed its start (R147, R160); the contention slots lie before it. -/
def takeReserved (j : Nat) (s : State) : State :=
  match s.radio.plan with
  | none => s
  | some p =>
    if reservedGranted j p s ∧ s.radio.tx.isNone ∧ s.now ≤ p.reservedStart j then
      sendReserved p.tl (setPlan { p with contentionDone := true, nextReserved := j + 1 } (reach (p.reservedStart j) s))
    else s

/-- RESERVED_SLOT (R158): nothing for a slot that is past or not this cab's. -/
def execReservedSlot (j : Nat) (s : State) : Out := whenUp (takeReserved j) s

/-! ## The ends of transmissions (R155, R160, R163) -/

/-- The transmission in progress carries a FARE TOTAL, whose carried entry is no longer unsent once it is complete (R59). -/
def sendsFareTotal (arrival : Nat) (s : State) : Bool :=
  ((findEntry arrival s).map (fun e => decide (e.kind = .fareTotal))).getD false

/-- A slot transmission of an entry ends complete (R59, R155, R160). -/
def completeEntry (arrival : Nat) (s : State) : State :=
  { s with
    closed := if sendsFareTotal arrival s then markSent s.closed else s.closed
    radio := s.radio.settleEntry arrival .awaitingAck }

/-- KEY is released after the last bit of a slot transmission (R160). -/
def takeTransmissionEnd (s : State) : State :=
  match s.radio.tx with
  | none => s
  | some t =>
    match t.kind with
    | .entry n => releaseKey (completeEntry n (reach t.ends s))
    | .reservationRequest => releaseKey (reach t.ends s)
    | .blind => s

/-- TRANSMISSION_END (R160): nothing unless a slot transmission is in progress. -/
def execTransmissionEnd (s : State) : Out := whenUp takeTransmissionEnd s

/-- KEY is released after the last bit of a blind frame (R163). -/
def takeBlindEnd (s : State) : State :=
  match s.radio.tx with
  | none => s
  | some t => if t.kind = .blind then releaseKey (reach t.ends s) else s

/-- BLIND_TRANSMISSION_END (R163): nothing unless a blind transmission is in progress. -/
def execBlindTransmissionEnd (s : State) : Out := whenUp takeBlindEnd s

/-! ## Frames as they come from the air (R143 to R145) -/

/-- The Downlink Sorter's delivery of a frame to its owner (R145); a command that no frame carries is delivered to none. -/
def deliver (i : Instr) (s : State) : State :=
  match i with
  | .cycleHead a h => receive (.cycleHead a h) (headValid a h) (takeHead h) s
  | .offer a o => receive (.offer a o) (offerWellNumbered o) (takeOffer a o) s
  | .award a n => receive (.award a n) (toCab a && decide (n ≠ 0)) (takeAward n) s
  | .lost a n => receive (.lost a n) (toCab a && decide (n ≠ 0)) (takeLost n) s
  | .withdraw a n => receive (.withdraw a n) (toCab a && decide (n ≠ 0)) (takeWithdraw n) s
  | .jobCancel a n => receive (.jobCancel a n) (toCab a && decide (n ≠ 0)) (cancelJob n) s
  | .poll a => receive (.poll a) true (refreshStatus .poll) s
  | .message a n c text => receive (.message a n c text) (messageWellFormed n c text) (takeMessage a n ((classOf c).getD .info) text) s
  | .alertSeen a => receive (.alertSeen a) (toCab a) takeAlertSeen s
  | .standDown a => receive (.standDown a) (toCab a) takeStandDown s
  | .beaconHold a n => receive (.beaconHold a n) (toCab a) (takeBeaconHold n) s
  | _ => s

/-- A frame from the air, by its bytes, its last bit received now: dropped without trace when a condition of R143 fails, the blanking of R144 among
them, and otherwise delivered. The sender may say that a bit of it met the blanking where the air bit rate does not show it (log 22). -/
def takeAirFrame (frame : List Byte) (blanked : Bool) (s : State) : State :=
  if blanked then s
  else match airFramer s.settings.fleet frame with
    | none => s
    | some i => deliver i s

/-- AIR_FRAME_DROPPED (R143, R144, R145). -/
def execAirFrameDropped (frame : List Byte) (blanked : Bool) (s : State) : Out := whenUp (takeAirFrame frame blanked) s

/-! ## SET POSITION, SET PRIORITY, READ PRIORITIES (R152, R153) -/

/-- A value within bounds of either sign. -/
def withinInt (bound v : Int) : Bool := decide (-bound ≤ v ∧ v ≤ bound)

/-- The Radio Link's taking of SET POSITION (R153). The instant held with the fix is that of this taking: for a request that was handed on earlier,
and answered PENDING, the instant of arrival is left open, and that it is not the reception of its frame at the port is the model's choice (log 37). -/
def setPosition (latitude longitude : Int) (s : State) : Reply :=
  if withinInt 9000000 latitude && withinInt 18000000 longitude then
    done .ok { s with radio := { s.radio with fix := some ⟨latitude, longitude, s.now⟩ } }
  else done .badValue s

/-- SET_POSITION (R153). -/
def execSetPosition (latitude longitude : Int) (s : State) : Out :=
  whenUp (request .terminal (.setPosition latitude longitude) (setPosition latitude longitude)) s

/-- The lowest level of a kind; the highest is 3 (R152). -/
def lowestLevel : Kind → Nat
  | .alert => 0
  | .accept => 2
  | .fareTotal => 2
  | .jobEvent => 1
  | .receipt => 0
  | .status => 0
  | .decline => 0
  | .driverMessage => 0

/-- The write of a level: the saved copy during an emergency, else the current level (R129, R152). -/
def writeLevel (k : Kind) (v : Nat) (s : State) : State :=
  if inEmergency s then { s with alarm := { s.alarm with saved := s.alarm.saved.map (fun l => l.set k v) } }
  else { s with radio := { s.radio with levels := s.radio.levels.set k v } }

/-- The taking of SET PRIORITY (R152). -/
def setPriority (kind level : Nat) (s : State) : Reply :=
  match levelKindOf kind with
  | none => done .badValue s
  | some k =>
    done (heldIf (decide (clamp (lowestLevel k) 3 level ≠ level))) (writeLevel k (clamp (lowestLevel k) 3 level) s)

/-- SET_PRIORITY (R152, R129). -/
def execSetPriority (kind level : Nat) (s : State) : Out :=
  whenUp (request .terminal (.setPriority kind level) (setPriority kind level)) s

/-- The levels that the terminal sees: the saved copy during an emergency (R129, R152). -/
def shownLevels (s : State) : Levels := if inEmergency s then s.alarm.saved.getD s.radio.levels else s.radio.levels

/-- The seven levels in the order of the table of R152, the rule that the command table of section 10.4 names for READ PRIORITIES (R177). -/
def levelsData (l : Levels) : List Byte :=
  [l.accept, l.fareTotal, l.jobEvent, l.receipt, l.status, l.decline, l.driverMessage].flatMap (natBytes 1)

/-- READ_PRIORITIES (R152). -/
def execReadPriorities (s : State) : Out :=
  whenUp (request .terminal .readPriorities (fun s => answer .ok (levelsData (shownLevels s)) s)) s

end Sys2Proof.Machine
end

