-- ==== Sys2Proof/Machine/Ports.lean ====
section
/-! DEFINITION. The two ports (10): the immediate requests, the reception of request frames, the notice enables, and the installation
settings. -/

namespace Sys2Proof.Machine

open Sys2Proof

/-! ## The immediate requests (R165, R167, R170) -/

/-- The answer to READ REPLY by the state of the buffer (R167, R177). -/
def replyBytes (b : ReplyBuffer) : List Byte :=
  match b with
  | .empty => natBytes 1 0 ++ natBytes 1 (resultCode .notReady) ++ natBytes 1 0
  | .pending code => natBytes 1 code ++ natBytes 1 (resultCode .notReady) ++ natBytes 1 0
  | .held code result data => natBytes 1 code ++ natBytes 1 (resultCode result) ++ natBytes 1 data.length ++ data

/-- A READ REPLY received (R167): the answer is driven, the buffer left as it is; on the Terminal Port it is a sign of the terminal (R77). -/
def takeReadReply (p : Port) (s : State) : State := setAnswer p (replyBytes (portState p s).buffer) (signOf p s)

/-- READ_REPLY (R165, R167). -/
def execReadReply (p : Port) (s : State) : Out := whenUp (takeReadReply p) s

/-- The notice set is taken and cleared, and driven on data out (R170). -/
def fetchNotices (p : Port) (s : State) : State :=
  setPort p { portState p s with answer := [(portState p s).notices], notices := 0 } s

/-- A READ NOTICES received (R170), with the sign of the terminal before or after the clearing as the free value has it (R77; log 12). -/
def takeReadNotices (p : Port) (s : State) : State :=
  if Config.signBeforeNotices then fetchNotices p (signOf p s) else signOf p (fetchNotices p s)

/-- READ_NOTICES (R165, R170). -/
def execReadNotices (p : Port) (s : State) : Out := whenUp (takeReadNotices p) s

/-! ## SET NOTICES (R170) -/

/-- The notice kinds of a port (R169, R177). -/
def portKinds : Port → BitVec 8
  | .meter => meterKinds
  | .terminal => terminalKinds

/-- The port's taking of SET NOTICES (R170): a kind not of the port's list is refused; otherwise the enable set is replaced. -/
def setNotices (p : Port) (enable : Nat) (s : State) : Reply :=
  if fitsBytes 1 enable && decide (BitVec.ofNat 8 enable &&& portKinds p = BitVec.ofNat 8 enable) then
    done .ok (setPort p { portState p s with enabled := BitVec.ofNat 8 enable } s)
  else done .badValue s

/-- SET_NOTICES (R170). -/
def execSetNotices (p : Port) (enable : Nat) (s : State) : Out :=
  whenUp (request p (.setNotices p enable) (setNotices p enable)) s

/-! ## A request frame (R165, R166) -/

/-- A request is handed to its owner: the reply buffer becomes PENDING (R166, R167). -/
def handOn (p : Port) (code : Nat) (h : Handed) (s : State) : State :=
  setBuffer p (.pending code) { s with handed := s.handed ++ [(p, h)] }

/-- A command request frame received complete (R166): dropped while one is PENDING; otherwise checked, and refused at once or handed on. -/
def takeFrame (p : Port) (code : Byte) (args : List Byte) (s : State) : State :=
  if bufferPending p s then s
  else match checkRequest p code.toNat args with
    | .badFrame => setBuffer p (.held code.toNat .badFrame []) s
    | .notPermitted => setBuffer p (.held code.toNat .notPermitted []) s
    | .badItem => handOn p code.toNat .unknownItem s
    | .take i => handOn p code.toNat (.command i) s

/-- The owner's taking of the request handed on first, a SET INSTALLATION with an item that is none of the eight: BAD VALUE (R168, R173; log 26). -/
def takeUnknownItem (s : State) : State :=
  match s.handed with
  | (p, _) :: rest => holdReply p 0x1E (done .badValue { s with handed := rest })
  | [] => s

/-- A transaction by its bytes (R165): an immediate request stands once its length byte is in; a command request needs every byte its length
states, and what follows is ignored; a shorter transaction is discarded, the idle byte driven all the same. -/
def takeTransaction (p : Port) (bytes : List Byte) (s : State) : State :=
  match bytes with
  | code :: len :: rest =>
    if code = 0x01 then takeReadReply p s
    else if code = 0x02 then takeReadNotices p s
    else if rest.length < len.toNat then driveIdle p s
    else takeFrame p code (rest.take len.toNat) (frameReceived p s)
  | [code] => if code = 0x01 ∨ code = 0x02 then s else driveIdle p s
  | [] => s

/-- REQUEST_FRAME_RECEIVED (R165, R166). -/
def execRequestFrameReceived (p : Port) (bytes : List Byte) (s : State) : Out := whenUp (takeTransaction p bytes) s

/-! ## Installation settings (R172 to R174) -/

/-- The taking of SET IDENTITY (R172). -/
def setIdentity (cab fleet : Nat) (s : State) : Reply :=
  if offDutyIdle s = false then done .refusedState s
  else if within 1 4095 cab && within 1 255 fleet then
    done .ok { s with settings := { s.settings with cab := cab, fleet := fleet } }
  else done .badValue s

/-- SET_IDENTITY (R172). -/
def execSetIdentity (cab fleet : Nat) (s : State) : Out := whenUp (request .meter (.setIdentity cab fleet) (setIdentity cab fleet)) s

/-- The taking of AIR RATE (R173). -/
def setAirRate (rate : Nat) (s : State) : Reply :=
  if rate = 2400 ∨ rate = 4800 then done .ok { s with settings := { s.settings with airRate := rate } } else done .badValue s

/-- SET_AIR_RATE (R173). -/
def execSetAirRate (rate : Nat) (s : State) : Out := whenUp (request .meter (.setAirRate rate) (setAirRate rate)) s

/-- The taking of KEY LEAD (R173). -/
def setKeyLead (ms : Nat) (s : State) : Reply :=
  done (heldIf (decide (clamp 10 100 ms ≠ ms))) { s with settings := { s.settings with keyLead := clamp 10 100 ms } }

/-- SET_KEY_LEAD (R173). -/
def execSetKeyLead (ms : Nat) (s : State) : Out := whenUp (request .meter (.setKeyLead ms) (setKeyLead ms)) s

/-- The taking of STATUS INTERVAL (R173). -/
def setStatusInterval (seconds : Nat) (s : State) : Reply :=
  done (heldIf (decide (clamp 30 600 seconds ≠ seconds)))
    { s with settings := { s.settings with statusInterval := clamp 30 600 seconds } }

/-- SET_STATUS_INTERVAL (R173). -/
def execSetStatusInterval (seconds : Nat) (s : State) : Out :=
  whenUp (request .meter (.setStatusInterval seconds) (setStatusInterval seconds)) s

/-- The taking of ALARM VISIBLE (R173): clear 0, set 1. -/
def setAlarmVisible (v : Nat) (s : State) : Reply :=
  match v with
  | 0 => done .ok { s with settings := { s.settings with alarmVisible := false } }
  | 1 => done .ok { s with settings := { s.settings with alarmVisible := true } }
  | _ => done .badValue s

/-- SET_ALARM_VISIBLE (R173). -/
def execSetAlarmVisible (v : Nat) (s : State) : Out := whenUp (request .meter (.setAlarmVisible v) (setAlarmVisible v)) s

/-- The three values of a beacon set brought into range, with the least space of the set (R135, R173). -/
def beaconClamp (leastSpace mostSpace count spacing space : Nat) : BeaconSetting :=
  ⟨clamp 1 8 count, clamp 1 30 spacing, clamp leastSpace mostSpace space⟩

/-- The taking of URGENT SET (R173). -/
def setUrgentSet (count spacing space : Nat) (s : State) : Reply :=
  done (heldIf (decide (beaconClamp 5 300 count spacing space ≠ ⟨count, spacing, space⟩)))
    { s with settings := { s.settings with urgent := beaconClamp 5 300 count spacing space } }

/-- SET_URGENT_SET (R173). -/
def execSetUrgentSet (count spacing space : Nat) (s : State) : Out :=
  whenUp (request .meter (.setUrgentSet count spacing space) (setUrgentSet count spacing space)) s

/-- The taking of SUSTAINED SET (R173). -/
def setSustainedSet (count spacing space : Nat) (s : State) : Reply :=
  done (heldIf (decide (beaconClamp 10 600 count spacing space ≠ ⟨count, spacing, space⟩)))
    { s with settings := { s.settings with sustained := beaconClamp 10 600 count spacing space } }

/-- SET_SUSTAINED_SET (R173). -/
def execSetSustainedSet (count spacing space : Nat) (s : State) : Out :=
  whenUp (request .meter (.setSustainedSet count spacing space) (setSustainedSet count spacing space)) s

/-- A sensitivity written to a line's setting. -/
def writeSensitivity (line : AlarmLine) (v : Sensitivity) (s : State) : State :=
  match line with
  | .alm0 => { s with settings := { s.settings with sens0 := v } }
  | .alm1 => { s with settings := { s.settings with sens1 := v } }

/-- A new sensitivity makes its line unarmed at once and clears its stuck mark and its count toward sticking (R123, R124); the current one written
again changes nothing (R173). -/
def changeSensitivity (line : AlarmLine) (v : Sensitivity) (s : State) : State :=
  if lineSensitivity line s = v then s else setLine line LineState.reset (writeSensitivity line v s)

/-- The taking of SENSITIVITY ALM0 and SENSITIVITY ALM1 (R173). -/
def setSensitivity (line : AlarmLine) (v : Nat) (s : State) : Reply :=
  if s.duty.state ≠ .offDuty ∨ inEmergency s then done .refusedState s
  else match sensitivityOf v with
    | some x => done .ok (changeSensitivity line x s)
    | none => done .badValue s

/-- SET_SENSITIVITY (R173). -/
def execSetSensitivity (line : AlarmLine) (v : Nat) (s : State) : Out :=
  whenUp (request .meter (.setSensitivity line v) (setSensitivity line v)) s

/-- A beacon set as it is read. -/
def beaconData (b : BeaconSetting) : List Byte := natBytes 1 b.count ++ natBytes 1 b.spacing ++ natBytes 2 b.space

/-- The settings in the order of the table of section 10.5 (R174). -/
def installationData (x : Settings) : List Byte :=
  natBytes 2 x.cab ++ natBytes 1 x.fleet ++ natBytes 2 x.k ++ natBytes 2 x.airRate ++ natBytes 1 x.keyLead ++ natBytes 2 x.statusInterval ++
  flagByte x.alarmVisible ++ beaconData x.urgent ++ beaconData x.sustained ++ natBytes 1 (sensitivityCode x.sens0) ++
  natBytes 1 (sensitivityCode x.sens1)

/-- READ_INSTALLATION (R174). -/
def execReadInstallation (s : State) : Out :=
  whenUp (request .meter .readInstallation (fun s => answer .ok (installationData s.settings) s)) s

end Sys2Proof.Machine
end

