-- ==== Sys2Proof/Machine/Supply.lean ====
section
/-! DEFINITION. Loss of supply, the two kinds of start, and the Fault Log's requests (12). -/

namespace Sys2Proof.Machine

open Sys2Proof

/-! ## What a start finds (R178) -/

/-- The Duty Unit at a start: the flag clear, the state derived from the trip (R62). -/
def dutyAtStart (t : Option Trip) : DutyUnit := { DutyUnit.reset with state := if t.isSome then .hired else .offDuty }

/-- Every item that is not retained takes its reset value (R179 step 2). The queue of commands and the count of free values used belong to the
model, and the supply and the domain's check to the callers. -/
def resetVolatile (s : State) : State :=
  { s with
    now := 0, handed := [], dist := ⟨0, 0⟩, evalDue := none, tariff := { s.tariff with staged := Staged.empty }, resumeDue := none
    duty := dutyAtStart s.trip, pool := poolFree, offers := OfferTable.reset, messages := MessageStore.reset
    alarm := AlarmUnit.reset s.alarm.record, radio := Radio.reset, meter := PortState.reset meterKinds
    terminal := PortState.reset terminalKinds }

/-- An image damaged in a way that only its own check value shows: the two no longer agree (R31; log 6). -/
def StoredImage.damage (i : StoredImage) : StoredImage := { i with check := imageCheck i.image ^^^ 1 }

/-- The active image damaged. -/
def damageActive (s : State) : State := { s with tariff := { s.tariff with active := s.tariff.active.map StoredImage.damage } }

/-- The pending image damaged. -/
def damagePending (s : State) : State := { s with tariff := { s.tariff with pending := s.tariff.pending.map StoredImage.damage } }

/-- The part goes down: what is not retained is gone, KEY and the attention lines are released and no timer runs (R178). -/
def goDown (s : State) : State := { resetVolatile s with power := .down }

/-! ## The course of a start (R179) -/

/-- A cold start (R178): every retained item takes its cold value, with the one Fault Log entry and its notice, and the new check value of the cold
contents is written. -/
def coldStart (s : State) : State := { State.reset with pending := s.pending, draws := s.draws }

/-- The check of an image at a warm start (R31). -/
def imagePasses (i : StoredImage) : Bool := decide (imageCheck i.image = i.check)

/-- The check of the active image (R31). -/
def checkActive (s : State) : State :=
  match s.tariff.active with
  | some i =>
    if imagePasses i then s
    else placeFault .tariffCheckFailed (tripActive s) { s with tariff := { s.tariff with active := none } }
  | none => s

/-- The check of the pending image (R31). -/
def checkPending (s : State) : State :=
  match s.tariff.pending with
  | some i =>
    if imagePasses i then s
    else placeFault .tariffCheckFailed (tripActive s) { s with tariff := { s.tariff with pending := none } }
  | none => s

/-- A trip found RUNNING (R20, R49): the interruption is counted, logged and told, and the evaluation timer restarts unless the fare is held
(R22). -/
def resumeRunning (t : Trip) (s : State) : State :=
  noticeMeter noticePowerInterrupted
    (placeFault .powerInterrupted true
      { s with
        trip := some { t with interruptions := min (t.interruptions + 1) 15 }
        totals := { s.totals with interruptions := satAdd Config.countMax s.totals.interruptions 1 }
        evalDue := if s.tariff.active.isSome then some (s.now + 1000) else none })

/-- A trip found STOPPED (R21, R22, R50): left as it was, but with a held fare its total is the computed fare and its uplift 0. -/
def keepStopped (t : Trip) (s : State) : State :=
  if s.tariff.active.isSome then s else { s with trip := some { t with phase := .stopped t.fare 0 } }

/-- The Trip Unit and the Fare Engine act on the trip found (R179 step 4). -/
def continueTrip (s : State) : State :=
  match s.trip with
  | none => s
  | some t =>
    match t.phase with
    | .running => resumeRunning t s
    | .stopped _ _ => keepStopped t s

/-- An emergency found is continued (R141, items 1, 2, 3 and 5). -/
def continueEmergency (s : State) : State :=
  if inEmergency s then
    noticeEmergency
      { s with
        alarm := { s.alarm with record := { s.alarm.record with cancelOpen := false }, saved := some Levels.default }
        radio := { s.radio with levels := Levels.zero } }
  else s

/-- The beacon of an emergency found restarts once the warm start has completed (R141 item 4; log 28). -/
def restartBeacon (s : State) : State := if inEmergency s then beginMark s else s

/-- The steps of a warm start as far as it has come (R179). -/
def warmSteps (reach : StartReach) (s : State) : State :=
  let found := { resetVolatile s with power := .up }
  match reach with
  | .kind => found
  | .activeImage => checkActive found
  | .images => checkPending (checkActive found)
  | .trip => continueTrip (checkPending (checkActive found))
  | .emergency => continueEmergency (continueTrip (checkPending (checkActive found)))

/-- A warm start that completes (R179): the steps, the FARE TOTAL of step 6, and then the beacon. -/
def warmStart (s : State) : State := restartBeacon (ensureFareTotal (warmSteps .emergency s))

/-- The kind of a start and what it does (R178): warm when the recomputed check value equals the stored one, else cold. Each retained change that it
makes is one change with the update of the check value. -/
def startAs (warm : State → State) (s : State) : State := if domainAgrees s then sealDomain (warm s) else coldStart s

/-- START (R178, R179). It is taken in every supply state: given to a part that is up it stands for a short assertion of RSTN (log 5). -/
def execStart (s : State) : Out := .next (startAs warmStart s)

/-! ## The loss of supply (R178, R179) -/

/-- What the loss makes of the Retained Domain (R31, R178; log 6). A domain that is lost or corrupt is one whose stored check value is not the one
that its contents give. A start that the loss abandons has made its retained changes, and the part is down again (R179; log 5). -/
def domainFate (fate : DomainFate) (s : State) : State :=
  match fate with
  | .kept => s
  | .lost => { s with domainCheck := computeDomainCheck s ^^^ 1 }
  | .activeDamaged => hideDamage s (damageActive s)
  | .pendingDamaged => hideDamage s (damagePending s)
  | .bothDamaged => hideDamage s (damageActive (damagePending s))
  | .leftByStart reach => goDown (startAs (warmSteps reach) s)

/-- VMAIN fails or RSTN goes low (R178): the part takes nothing more, and what is not retained is gone. -/
def losePower (fate : DomainFate) (s : State) : State := domainFate fate (goDown s)

/-- VMAIN_LOSS_OR_RESET (R178, R179): in every supply state; a second loss may still harm the domain. -/
def execVmainLossOrReset (fate : DomainFate) (s : State) : Out := .next (losePower fate s)

/-! ## The Fault Log's requests (R181) -/

/-- An entry of the Fault Log as it is read (R180). -/
def faultBytes (f : FaultEntry) : List Byte := natBytes 1 (faultCode f.kind) ++ clockBytes f.time ++ flagByte f.tripActive

/-- The data of READ FAULTS: the number of entries and every entry, oldest first (R181). -/
def faultsData (fs : List FaultEntry) : List Byte := natBytes 1 fs.length ++ fs.flatMap faultBytes

/-- READ_FAULTS (R181). -/
def execReadFaults (s : State) : Out := whenUp (request .meter .readFaults (fun s => answer .ok (faultsData s.faults) s)) s

/-- The taking of CLEAR FAULTS (R181). -/
def clearFaults (s : State) : Reply := if s.trip.isSome then done .refusedState s else done .ok { s with faults := [] }

/-- CLEAR_FAULTS (R181). -/
def execClearFaults (s : State) : Out := whenUp (request .meter .clearFaults clearFaults) s

end Sys2Proof.Machine
end

