-- ==== Sys2Proof/Machine/Dispatch.lean ====
section
/-! DEFINITION. The meaning of each command, one arm for each row of spec/opcode_table.json. -/

namespace Sys2Proof.Machine

open Sys2Proof

/-- The effect of a command on everything but the queue. -/
def exec (i : Instr) (s : State) : Host.Outcome State Fault Refusal :=
  match i with
  | .distPulse => Sys2Proof.Machine.execDistPulse s
  | .evaluation => Sys2Proof.Machine.execEvaluation s
  | .flagDown mode band => Sys2Proof.Machine.execFlagDown mode band s
  | .stop => Sys2Proof.Machine.execStop s
  | .resume => Sys2Proof.Machine.execResume s
  | .clear => Sys2Proof.Machine.execClear s
  | .addExtra n => Sys2Proof.Machine.execAddExtra n s
  | .readTrip port => Sys2Proof.Machine.execReadTrip port s
  | .readClosed n => Sys2Proof.Machine.execReadClosed n s
  | .readTotals => Sys2Proof.Machine.execReadTotals s
  | .loadTariffPart part content => Sys2Proof.Machine.execLoadTariffPart part content s
  | .commitTariff expected => Sys2Proof.Machine.execCommitTariff expected s
  | .readTariffCheck => Sys2Proof.Machine.execReadTariffCheck s
  | .setClock day hour minute second => Sys2Proof.Machine.execSetClock day hour minute second s
  | .readClock => Sys2Proof.Machine.execReadClock s
  | .calibrate k => Sys2Proof.Machine.execCalibrate k s
  | .setIdentity cab fleet => Sys2Proof.Machine.execSetIdentity cab fleet s
  | .setAirRate rate => Sys2Proof.Machine.execSetAirRate rate s
  | .setKeyLead ms => Sys2Proof.Machine.execSetKeyLead ms s
  | .setStatusInterval seconds => Sys2Proof.Machine.execSetStatusInterval seconds s
  | .setAlarmVisible value => Sys2Proof.Machine.execSetAlarmVisible value s
  | .setUrgentSet count spacing space => Sys2Proof.Machine.execSetUrgentSet count spacing space s
  | .setSustainedSet count spacing space => Sys2Proof.Machine.execSetSustainedSet count spacing space s
  | .setSensitivity line value => Sys2Proof.Machine.execSetSensitivity line value s
  | .readInstallation => Sys2Proof.Machine.execReadInstallation s
  | .readEmergency => Sys2Proof.Machine.execReadEmergency s
  | .readFaults => Sys2Proof.Machine.execReadFaults s
  | .clearFaults => Sys2Proof.Machine.execClearFaults s
  | .setNotices port enable => Sys2Proof.Machine.execSetNotices port enable s
  | .readNotices port => Sys2Proof.Machine.execReadNotices port s
  | .readReply port => Sys2Proof.Machine.execReadReply port s
  | .signOn => Sys2Proof.Machine.execSignOn s
  | .signOff => Sys2Proof.Machine.execSignOff s
  | .soonClear minutes => Sys2Proof.Machine.execSoonClear minutes s
  | .cancelClear => Sys2Proof.Machine.execCancelClear s
  | .noShow => Sys2Proof.Machine.execNoShow s
  | .readJob selector => Sys2Proof.Machine.execReadJob selector s
  | .setZones zones => Sys2Proof.Machine.execSetZones zones s
  | .setOfferMode value => Sys2Proof.Machine.execSetOfferMode value s
  | .readOffer n => Sys2Proof.Machine.execReadOffer n s
  | .accept number => Sys2Proof.Machine.execAccept number s
  | .decline number => Sys2Proof.Machine.execDecline number s
  | .dismiss number => Sys2Proof.Machine.execDismiss number s
  | .readMessage n => Sys2Proof.Machine.execReadMessage n s
  | .markRead number => Sys2Proof.Machine.execMarkRead number s
  | .delete number => Sys2Proof.Machine.execDelete number s
  | .reply number canned text => Sys2Proof.Machine.execReply number canned text s
  | .sendMessage canned text => Sys2Proof.Machine.execSendMessage canned text s
  | .readOutbound n => Sys2Proof.Machine.execReadOutbound n s
  | .dismissOutbound localNumber => Sys2Proof.Machine.execDismissOutbound localNumber s
  | .setPosition latitude longitude => Sys2Proof.Machine.execSetPosition latitude longitude s
  | .setPriority kind level => Sys2Proof.Machine.execSetPriority kind level s
  | .readPriorities => Sys2Proof.Machine.execReadPriorities s
  | .readStatus => Sys2Proof.Machine.execReadStatus s
  | .alarmCancel => Sys2Proof.Machine.execAlarmCancel s
  | .airFrameDropped frame blanked => Sys2Proof.Machine.execAirFrameDropped frame blanked s
  | .cycleHead address head => Sys2Proof.Machine.execCycleHead address head s
  | .backoffEnd arrival => Sys2Proof.Machine.execBackoffEnd arrival s
  | .retryLimitReached arrival => Sys2Proof.Machine.execRetryLimitReached arrival s
  | .linkLost => Sys2Proof.Machine.execLinkLost s
  | .contentionSlot => Sys2Proof.Machine.execContentionSlot s
  | .reservedSlot place => Sys2Proof.Machine.execReservedSlot place s
  | .transmissionEnd => Sys2Proof.Machine.execTransmissionEnd s
  | .offer address fields => Sys2Proof.Machine.execOffer address fields s
  | .award address number => Sys2Proof.Machine.execAward address number s
  | .lost address number => Sys2Proof.Machine.execLost address number s
  | .withdraw address number => Sys2Proof.Machine.execWithdraw address number s
  | .jobCancel address number => Sys2Proof.Machine.execJobCancel address number s
  | .poll address => Sys2Proof.Machine.execPoll address s
  | .message address number cls text => Sys2Proof.Machine.execMessage address number cls text s
  | .alertSeen address => Sys2Proof.Machine.execAlertSeen address s
  | .standDown address => Sys2Proof.Machine.execStandDown address s
  | .beaconHold address count => Sys2Proof.Machine.execBeaconHold address count s
  | .alarmLineLevel alm0 alm1 => Sys2Proof.Machine.execAlarmLineLevel alm0 alm1 s
  | .lineArmed line level => Sys2Proof.Machine.execLineArmed line level s
  | .alarmLineStuck line => Sys2Proof.Machine.execAlarmLineStuck line s
  | .cancelWindowExpiry => Sys2Proof.Machine.execCancelWindowExpiry s
  | .beaconCycleStart => Sys2Proof.Machine.execBeaconCycleStart s
  | .beaconBurst => Sys2Proof.Machine.execBeaconBurst s
  | .blindTransmissionEnd => Sys2Proof.Machine.execBlindTransmissionEnd s
  | .resumeWindowExpiry => Sys2Proof.Machine.execResumeWindowExpiry s
  | .statusIntervalExpiry => Sys2Proof.Machine.execStatusIntervalExpiry s
  | .presenceTimerExpiry => Sys2Proof.Machine.execPresenceTimerExpiry s
  | .deadlineExpiry number => Sys2Proof.Machine.execDeadlineExpiry number s
  | .awardTimerExpiry number => Sys2Proof.Machine.execAwardTimerExpiry number s
  | .clockTick => Sys2Proof.Machine.execClockTick s
  | .vmainLossOrReset fate => Sys2Proof.Machine.execVmainLossOrReset fate s
  | .start => Sys2Proof.Machine.execStart s
  | .requestFrameReceived port bytes => Sys2Proof.Machine.execRequestFrameReceived port bytes s

end Sys2Proof.Machine
end

