-- ==== Sys2Proof/Machine/Time.lean ====
section
/-! DEFINITION. What the part does of itself when no command waits: the requests handed to their owners, the events of its own timers, slots and
transmissions, and the passing of its time base (log 2). -/

namespace Sys2Proof.Machine

open Sys2Proof

/-- An event that has fallen due by now. -/
def dueNow (s : State) (due : Option Nat) : Bool := (due.map (fun d => decide (d ≤ s.now))).getD false

/-- The end of the transmission in progress, if it has fallen due. -/
def dueTransmission (s : State) : List Instr :=
  match s.radio.tx with
  | none => []
  | some t => if t.ends ≤ s.now then [if t.kind = .blind then .blindTransmissionEnd else .transmissionEnd] else []

/-- The expiries of offer timers that have fallen due, oldest entry first (R96, R102). -/
def dueOffers (s : State) : List Instr :=
  s.offers.entries.filterMap (fun o => match o.state with
    | .offered due => if due ≤ s.now then some (.deadlineExpiry o.number) else none
    | .accepting due => if due ≤ s.now then some (.awardTimerExpiry o.number) else none
    | .awaitingAward due => if due ≤ s.now then some (.awardTimerExpiry o.number) else none
    | _ => none)

/-- The slots that start now (R157, R158), while nothing is being transmitted. -/
def dueSlots (s : State) : List Instr :=
  match s.radio.plan with
  | none => []
  | some p =>
    if s.radio.tx.isSome then []
    else
      (if p.contentionDone = false ∧ p.contentionStart = s.now then [.contentionSlot] else []) ++
      ((List.range p.grants.length).filter (fun j => reservedGranted j p s && decide (p.reservedStart j = s.now))).map .reservedSlot

/-- The expiries of the remaining timers that have fallen due. -/
def dueTimers (s : State) : List Instr :=
  (if dueNow s s.alarm.cancelDue then [.cancelWindowExpiry] else []) ++
  (if dueNow s s.evalDue then [.evaluation] else []) ++
  (if dueNow s s.resumeDue then [.resumeWindowExpiry] else []) ++
  (if dueNow s s.duty.statusDue then [.statusIntervalExpiry] else []) ++
  (if dueNow s s.duty.presenceDue then [.presenceTimerExpiry] else [])

/-- The beacon's events that have fallen due (R135). -/
def dueBeacon (s : State) : List Instr :=
  (if dueNow s ((beaconDue false s).map BeaconCycle.due) then [.beaconCycleStart] else []) ++
  (if dueNow s ((beaconDue true s).map BeaconCycle.due) then [.beaconBurst] else [])

/-- The expiry of the link timer, if it has fallen due and no slot transmission is in progress (R149). -/
def dueLink (s : State) : List Instr := if dueNow s s.radio.linkDue && !slotTransmission s then [.linkLost] else []

/-- The part's own events that have fallen due, in the order in which the model takes them (log 2). -/
def dueEvents (s : State) : List Instr :=
  dueTransmission s ++ dueTimers s ++ dueOffers s ++ dueBeacon s ++ dueSlots s ++ dueLink s

/-- What the part takes of itself: a request handed to its owner, else an event that has fallen due (log 2). -/
def ownEvent (s : State) : Option Handed :=
  match s.power with
  | .down => none
  | .up =>
    match s.handed with
    | (_, h) :: _ => some h
    | [] => (dueEvents s).head?.map .command

/-- The time base advances by one millisecond while the part is supplied (log 2). -/
def passTime (s : State) : State :=
  match s.power with
  | .up => { s with now := s.now + 1 }
  | .down => s

end Sys2Proof.Machine
end

