-- ==== Sys2Proof/Machine/Step.lean ====
section
/-! DEFINITION. The step of the machine: the command at the front of the queue, or, when none waits, what the part does of itself. -/

namespace Sys2Proof.Machine

open Sys2Proof

/-- One step (log 1, log 2): the command at the front of the queue is taken with the queue's rest; on an empty queue the part takes its own
next event, or lets its time base pass. -/
def step (s : State) : Host.Outcome State Fault Refusal :=
  match s.pending with
  | c :: rest => exec c { s with pending := rest }
  | [] =>
    match ownEvent s with
    | some (.command c) => exec c s
    | some .unknownItem => whenUp takeUnknownItem s
    | none => .next (passTime s)

/-- The state with the command that a word spells put at the front of its queue; unchanged where the word spells none, as every word does here
(log 23). -/
def State.withFetchWord (s : State) (nbits w : Nat) : State :=
  match decodeTableWord nbits w with
  | some c => { s with pending := c :: s.pending }
  | none => s

end Sys2Proof.Machine
end

