-- ==== Sys2Proof/Safety.lean ====
section
/-! DEFINITION. The laws that hold at all times (00 section 5.6), each as a property of a state, and what counts as a completed command. -/

namespace Sys2Proof.Machine

open Sys2Proof

/-! ## Duty, jobs and presence (R62, R66, R74, R77) -/

/-- The combinations of R62: of duty state, signed-on flag, a trip in progress, a current job and a next job. -/
def dutyRow (d : DutyState) (signedOn trip current next : Bool) : Bool :=
  match d with
  | .offDuty => !signedOn && !trip && !current && !next
  | .vacant => signedOn && !trip && !current && !next
  | .assigned => signedOn && !trip && current && !next
  | .hired => trip && !current && (signedOn || !next)
  | .clearing => signedOn && trip && !current

/-- The Duty Unit's law: a combination of R62; presence tracked exactly while signed on (R77); each timer running exactly when its rule has it run
(R74, R77); soon-clear minutes exactly in CLEARING, 1 to 15 (R66). -/
abbrev DutyLaw (s : State) : Prop :=
  dutyRow s.duty.state s.duty.signedOn s.trip.isSome s.duty.current.isSome s.duty.next.isSome = true ∧
  (s.duty.presence = .notTracked ↔ s.duty.signedOn = false) ∧
  (s.duty.presenceDue.isSome ↔ s.duty.presence = .present) ∧
  (s.duty.statusDue.isSome ↔ s.duty.signedOn = true) ∧
  (s.duty.soonClear.isSome ↔ s.duty.state = .clearing) ∧
  ∀ m ∈ s.duty.soonClear.toList, 1 ≤ m ∧ m ≤ 15

/-! ## Offers (R87, R88, R107) -/

/-- The Offer Table's law (R88, R107): at most 8 entries in arrival order, no two of one number, at most one accepted, deadlines of 5 to 60 s; at
most 6 zones, each once. -/
abbrev OfferLaw (s : State) : Prop :=
  s.offers.entries.length ≤ 8 ∧
  (s.offers.entries.map Offer.number).Nodup ∧
  s.offers.entries.countP Offer.accepted ≤ 1 ∧
  (s.offers.entries.map Offer.arrival).Pairwise (· < ·) ∧
  (∀ o ∈ s.offers.entries, o.arrival < s.offers.nextArrival ∧ 5 ≤ o.deadline ∧ o.deadline ≤ 60 ∧ o.number ≠ 0) ∧
  s.offers.zones.length ≤ 6 ∧ s.offers.zones.Nodup ∧ ∀ z ∈ s.offers.zones, 1 ≤ z ∧ z ≤ 999

/-! ## Messages (R109, R110, R117) -/

/-- The Message Store's law: at most 16 inbound entries of distinct numbers, at most 8 recently removed ones, none in both lists; at most 6
outbound entries of distinct local numbers, 1 to 255, a resolved one without blocks (R117, R121). -/
abbrev MessageLaw (s : State) : Prop :=
  s.messages.inbound.length ≤ 16 ∧ (s.messages.inbound.map Inbound.number).Nodup ∧
  s.messages.removed.length ≤ 8 ∧ s.messages.removed.Nodup ∧
  (∀ m ∈ s.messages.inbound, m.number ≠ 0 ∧ m.number ∉ s.messages.removed) ∧
  s.messages.outbound.length ≤ 6 ∧ (s.messages.outbound.map Outbound.localNumber).Nodup ∧
  (∀ o ∈ s.messages.outbound, 1 ≤ o.localNumber ∧ o.localNumber ≤ 255 ∧ (o.resolved = true → o.blocks = [])) ∧
  1 ≤ s.messages.nextLocal ∧ s.messages.nextLocal ≤ 255

/-! ## The pool (R79) -/

/-- Every holder that exists, with the text it holds (R79). -/
def textHolders (s : State) : List (Holder × TextRef) :=
  s.offers.entries.map (fun o => (.offer o.number, o.text)) ++
  s.duty.current.toList.map (fun j => (.currentJob, j.text)) ++
  s.duty.next.toList.map (fun j => (.nextJob, j.text)) ++
  s.messages.inbound.map (fun m => (.inbound m.number, m.text)) ++
  s.messages.outbound.map (fun o => (.outbound o.localNumber, ⟨o.blocks, 0⟩))

/-- The owner tag of a block. -/
def blockOwner (pool : List Block) (n : Nat) : Option Holder := pool[n]?.bind Block.owner

/-- The pool's law (R79): 64 blocks; each block of a holder's list carries the holder's tag and stands in the list once; and each tagged block
stands in the list of the holder it names. -/
abbrev PoolLaw (s : State) : Prop :=
  s.pool.length = 64 ∧
  (∀ h ∈ textHolders s, h.2.blocks.Nodup ∧ ∀ n ∈ h.2.blocks, blockOwner s.pool n = some h.1) ∧
  ∀ n, n < 64 → ∀ o ∈ (blockOwner s.pool n).toList, ∃ h ∈ textHolders s, h.1 = o ∧ n ∈ h.2.blocks

/-! ## Closed trips (R51, R54, R55, R58) -/

/-- The closed-trip list's law: at most 8 entries of 1 to 255 trips, at most one pinned, a reported one only while pinned; no pin and no intent in
NORMAL, and an intent only for a trip not yet closed, before its entry is pinned. -/
abbrev ClosedLaw (s : State) : Prop :=
  s.closed.length ≤ 8 ∧ s.closed.countP ClosedTrip.pinned ≤ 1 ∧
  (∀ c ∈ s.closed, 1 ≤ c.count ∧ c.count ≤ 255 ∧ (c.reported = true → c.pinned = true)) ∧
  (s.alarm.record.state = .normal → s.alarm.record.pinIntent = false ∧ ∀ c ∈ s.closed, c.pinned = false) ∧
  (s.alarm.record.pinIntent = true → s.trip.isSome ∧ ∀ c ∈ s.closed, c.pinned = false)

/-! ## Emergency and levels (R126, R129, R152) -/

/-- Levels within the bounds of R152. -/
def levelsInBounds (l : Levels) : Bool :=
  within 2 3 l.accept && within 1 3 l.jobEvent && within 2 3 l.fareTotal && within 0 3 l.receipt && within 0 3 l.status &&
  within 0 3 l.decline && within 0 3 l.driverMessage

/-- The Alarm Unit's law: in NORMAL no cancel window, no beacon, no hold, and levels within bounds with no saved copy; in an emergency 1 to 15
presses, and, while the part is supplied, every level 0, a saved copy within bounds and a beacon cycle; the cancel window open only in
ALERTING, with its timer running exactly then. -/
abbrev EmergencyLaw (s : State) : Prop :=
  (s.alarm.record.state = .normal →
    s.alarm.record.cancelOpen = false ∧ s.alarm.record.beaconSet = .urgent ∧ s.alarm.record.position = none ∧ s.alarm.record.hold = 0 ∧
    s.alarm.cycle = none ∧ s.alarm.saved = none ∧ levelsInBounds s.radio.levels = true) ∧
  (s.alarm.record.state ≠ .normal → 1 ≤ s.alarm.record.presses ∧ s.alarm.record.startTime.isSome) ∧
  s.alarm.record.presses ≤ 15 ∧ s.alarm.record.hold ≤ 15 ∧ s.alarm.latch = false ∧
  (s.power = .up → s.alarm.record.state ≠ .normal →
    s.radio.levels = Levels.zero ∧ (s.alarm.saved.map levelsInBounds).getD false = true ∧ s.alarm.cycle.isSome ∧
    s.alarm.record.position.isSome) ∧
  (s.alarm.record.cancelOpen = true → s.alarm.record.state = .alerting) ∧
  (s.power = .up → (s.alarm.cancelDue.isSome ↔ s.alarm.record.cancelOpen = true))

/-! ## The Uplink Queue and the transmitter (R154, R155, R162, R163) -/

/-- What holds of each entry: marks of the owner only while SENDING, a waiting creation only of its own kind for an entry that leaves, a
backoff of 1 to 15 exactly in BACKOFF, and a retry count within the limit of the kind. -/
def Entry.lawful (e : Entry) : Bool :=
  (decide (e.state = .sending) || (!e.removed && !e.refreshed && e.deferred.isNone)) &&
  (e.deferred.isNone || (e.removed && decide (e.deferred.map contentKind = some e.kind))) &&
  (if e.state = .backoff then within 1 15 e.backoff else decide (e.backoff = 0)) &&
  !overLimit e.kind e.retry

/-- The arrival order of the entry whose transmission is in progress. -/
def sendingEntry (s : State) : Option Nat :=
  match s.radio.tx.map Transmission.kind with
  | some (.entry n) => some n
  | some .reservationRequest => none
  | some .blind => none
  | none => none

/-- The law of the Uplink Queue and the transmitter: at most one entry of each reserved kind and 8 general ones, in arrival order, each lawful;
an entry is SENDING exactly when the transmission in progress is its own; a plan and a running link timer exactly while the link is not
LOST; slot transmissions only then, and blind ones only while it is LOST; a blind frame waits only for a KEY that is asserted; the sequences held
are distinct and, like the next one, 0 to 15 (R154, R156). -/
abbrev QueueLaw (s : State) : Prop :=
  s.radio.generalCount ≤ 8 ∧
  (∀ k ∈ [Kind.alert, .accept, .fareTotal, .status], s.radio.queue.countP (fun e => decide (e.kind = k)) ≤ 1) ∧
  (s.radio.queue.map Entry.arrival).Pairwise (· < ·) ∧
  (∀ e ∈ s.radio.queue, e.arrival < s.radio.nextArrival ∧ e.lawful = true ∧
    (e.state = .sending ↔ sendingEntry s = some e.arrival)) ∧
  (∀ n ∈ (sendingEntry s).toList, ∃ e ∈ s.radio.queue, e.arrival = n) ∧
  (s.radio.plan.isSome ↔ s.radio.link ≠ .lost) ∧ (s.radio.linkDue.isSome ↔ s.radio.link ≠ .lost) ∧
  (s.radio.link = .lost → slotTransmission s = false) ∧
  (s.radio.link ≠ .lost → s.radio.tx.map Transmission.kind ≠ some .blind ∧ s.radio.blindWaiting = []) ∧
  (s.radio.blindWaiting ≠ [] → s.radio.tx.isSome) ∧
  (s.radio.queue.filterMap Entry.seq).Nodup ∧ (∀ q ∈ s.radio.queue.filterMap Entry.seq, q < 16) ∧ s.radio.nextSeq < 16

/-! ## Tariff, fare and trip (R5, R12, R14, R23, R24, R38) -/

/-- Every value of an image is in its range (R23, R24). -/
def Image.inRange (i : Image) : Bool :=
  i.band1.inRange && i.band2.inRange && i.band3.inRange && i.band4.inRange && i.schedule.all ScheduleEntry.inRange &&
  i.extras.all Extra.inRange && decide (i.schedule.length ≤ 8) && decide (i.extras.length ≤ 8)

/-- Every value of the staged parts received is in its range (R27). -/
def Staged.inRange (st : Staged) : Bool :=
  ((st.part0.map (fun p => p.2.1.inRange && p.2.2.inRange)).getD true) && ((st.part1.map (fun p => p.1.inRange && p.2.inRange)).getD true) &&
  ((st.part2.map (fun es => es.all ScheduleEntry.inRange && decide (es.length ≤ 8))).getD true) &&
  ((st.part3.map (fun es => es.all Extra.inRange && decide (es.length ≤ 8))).getD true)

/-- A trip's figures are within their bounds: progress below remaining-to-step (R12), the fare within its bound and at it once saturated (R14), the
counts within theirs, at most 15 interruptions (R38). -/
def Trip.inBounds (t : Trip) : Bool :=
  decide (t.progress < t.remaining) && decide (t.fare ≤ Config.fareMax) && (!t.saturated || decide (t.fare = Config.fareMax)) &&
  decide (t.steps ≤ Config.countMax) && decide (t.distance ≤ Config.countMax) && decide (t.waiting ≤ Config.countMax) &&
  decide (t.interruptions ≤ 15)

/-- The Fare Engine's law: images and staged parts in range, the trip's figures within bounds, and the evaluation timer running exactly while a
trip RUNs under an active image (R7, R22), the resume window open only in STOPPED (R42). -/
abbrev FareLaw (s : State) : Prop :=
  (∀ i ∈ s.tariff.active.toList, i.image.inRange = true) ∧ (∀ i ∈ s.tariff.pending.toList, i.image.inRange = true) ∧
  s.tariff.staged.inRange = true ∧
  (∀ t ∈ s.trip.toList, t.inBounds = true) ∧
  (s.power = .up → (s.evalDue.isSome ↔ tripRunning s = true ∧ s.tariff.active.isSome)) ∧
  (s.resumeDue.isSome → tripStopped s = true)

/-! ## Settings, clock and counters (R1, R32, R36, R60, 10.5, R180) -/

/-- A beacon set within its ranges (R135). -/
def BeaconSetting.inRange (leastSpace mostSpace : Nat) (b : BeaconSetting) : Bool :=
  within 1 8 b.count && within 1 30 b.spacing && within leastSpace mostSpace b.space

/-- The ranges of the table of section 10.5. -/
def Settings.inRange (x : Settings) : Bool :=
  ((decide (x.cab = 0) && decide (x.fleet = 0)) || (within 1 4095 x.cab && within 1 255 x.fleet)) &&
  (decide (x.k = 0) || within 500 60000 x.k) && (decide (x.airRate = 2400) || decide (x.airRate = 4800)) && within 10 100 x.keyLead &&
  within 30 600 x.statusInterval && x.urgent.inRange 5 300 && x.sustained.inRange 10 600

/-- Each totalizer is within its bound (R60). -/
def Totals.inRange (x : Totals) : Bool :=
  [x.distance, x.hired, x.trips, x.fare, x.extras, x.steps, x.interruptions, x.reported].all (fun v => decide (v ≤ Config.countMax))

/-- The law of the retained settings and counters: the ranges of section 10.5, R32, R1, R2, R60 and R180. -/
abbrev SettingsLaw (s : State) : Prop :=
  s.settings.inRange = true ∧
  clockInRange s.tariff.clock.day s.tariff.clock.hour s.tariff.clock.minute s.tariff.clock.second = true ∧
  (s.settings.k = 0 → s.dist.remainder = 0) ∧ (s.settings.k ≠ 0 → s.dist.remainder < s.settings.k) ∧
  s.dist.metres ≤ Config.metresMax ∧ s.totals.inRange = true ∧ s.faults.length ≤ 16

/-! ## The Retained Domain (R178) -/

/-- The check value of the Retained Domain agrees with its contents while the part is up (R178). -/
abbrev DomainLaw (s : State) : Prop := s.power = .up → s.domainCheck = computeDomainCheck s

/-! ## Frames -/

/-- The parts of the state, to say which of them a command may change. The check value of the Retained Domain is none of them: it follows the
retained items (R178), as `DomainLaw` says. -/
inductive Field where
  | pending
  | power
  | now
  | draws
  | handed
  | dist
  | evalDue
  | tariff
  | trip
  | resumeDue
  | closed
  | totals
  | duty
  | pool
  | offers
  | messages
  | alarm
  | radio
  | meter
  | terminal
  | settings
  | faults
  deriving DecidableEq, Repr

/-- A part of the state is the same in two states. -/
def Field.same (s t : State) : Field → Prop
  | .pending => t.pending = s.pending
  | .power => t.power = s.power
  | .now => t.now = s.now
  | .draws => t.draws = s.draws
  | .handed => t.handed = s.handed
  | .dist => t.dist = s.dist
  | .evalDue => t.evalDue = s.evalDue
  | .tariff => t.tariff = s.tariff
  | .trip => t.trip = s.trip
  | .resumeDue => t.resumeDue = s.resumeDue
  | .closed => t.closed = s.closed
  | .totals => t.totals = s.totals
  | .duty => t.duty = s.duty
  | .pool => t.pool = s.pool
  | .offers => t.offers = s.offers
  | .messages => t.messages = s.messages
  | .alarm => t.alarm = s.alarm
  | .radio => t.radio = s.radio
  | .meter => t.meter = s.meter
  | .terminal => t.terminal = s.terminal
  | .settings => t.settings = s.settings
  | .faults => t.faults = s.faults

/-- Of the parts of the state, none but the listed ones differ between s and t. -/
def changesOnly (fields : List Field) (s t : State) : Prop := ∀ f, f ∉ fields → f.same s t

/-- The port whose reply buffer answers a command, for the commands that are command requests (R165, 10.4). -/
def requestPort : Instr → Option Port
  | .flagDown _ _ | .stop | .resume | .clear | .addExtra _ | .readClosed _ | .readTotals | .loadTariffPart _ _ | .commitTariff _
  | .readTariffCheck | .setClock _ _ _ _ | .readClock | .calibrate _ | .setIdentity _ _ | .setAirRate _ | .setKeyLead _
  | .setStatusInterval _ | .setAlarmVisible _ | .setUrgentSet _ _ _ | .setSustainedSet _ _ _ | .setSensitivity _ _ | .readInstallation
  | .readEmergency | .readFaults | .clearFaults => some .meter
  | .signOn | .signOff | .soonClear _ | .cancelClear | .noShow | .readJob _ | .setZones _ | .setOfferMode _ | .readOffer _ | .accept _
  | .decline _ | .dismiss _ | .readMessage _ | .markRead _ | .delete _ | .reply _ _ _ | .sendMessage _ _ | .readOutbound _
  | .dismissOutbound _ | .setPosition _ _ | .setPriority _ _ | .readPriorities | .readStatus | .alarmCancel => some .terminal
  | .readTrip p | .setNotices p _ => some p
  | _ => none

/-- The commands that come from the terminal controller or from the air (00 section 1). -/
def fromTerminalOrAir : Instr → Bool
  | .airFrameDropped _ _ | .cycleHead _ _ | .offer _ _ | .award _ _ | .lost _ _ | .withdraw _ _ | .jobCancel _ _ | .poll _ | .message _ _ _ _
  | .alertSeen _ | .standDown _ | .beaconHold _ _ => true
  | .readReply p | .readNotices p | .requestFrameReceived p _ => decide (p = .terminal)
  | i => decide (requestPort i = some .terminal)

/-- What any request of a port may change of itself: the port, the requests handed on, and, on the Terminal Port, what follows a sign of the
terminal (R77, R94). -/
def requestFields : Port → List Field
  | .meter => [.handed, .meter]
  | .terminal => [.handed, .radio, .duty, .offers, .terminal]

/-- The parts of the state that each command may change. -/
def mayChange : Instr → List Field
  | .distPulse => [.totals, .dist]
  | .evaluation => [.now, .evalDue, .tariff, .trip, .dist, .faults, .meter, .terminal]
  | .flagDown _ _ => requestFields .meter ++ [.trip, .evalDue, .dist, .terminal, .tariff, .faults, .pool, .duty, .offers, .radio]
  | .stop => requestFields .meter ++ [.trip, .dist, .faults, .terminal, .evalDue, .resumeDue]
  | .resume => requestFields .meter ++ [.trip, .resumeDue, .evalDue, .terminal]
  | .clear =>
    requestFields .meter ++ [.resumeDue, .closed, .alarm, .totals, .radio, .tariff, .trip, .evalDue, .dist, .terminal, .pool, .duty, .offers]
  | .addExtra _ => requestFields .meter ++ [.trip, .terminal]
  | .readTrip p | .setNotices p _ | .readReply p | .readNotices p | .requestFrameReceived p _ => requestFields p
  | .readClosed _ | .readTotals | .readTariffCheck | .readClock | .readInstallation | .readEmergency | .readFaults => requestFields .meter
  | .loadTariffPart _ _ | .commitTariff _ | .setClock _ _ _ _ => requestFields .meter ++ [.tariff]
  | .calibrate _ => requestFields .meter ++ [.settings, .dist]
  | .setIdentity _ _ | .setAirRate _ | .setKeyLead _ | .setStatusInterval _ | .setAlarmVisible _ | .setUrgentSet _ _ _
  | .setSustainedSet _ _ _ => requestFields .meter ++ [.settings]
  | .setSensitivity _ _ => requestFields .meter ++ [.settings, .alarm]
  | .clearFaults => requestFields .meter ++ [.faults]
  | .signOn | .signOff | .soonClear _ | .cancelClear | .readJob _ | .setZones _ | .setOfferMode _ | .readOffer _ | .accept _ | .decline _
  | .readMessage _ | .readOutbound _ | .setPosition _ _ | .readPriorities | .readStatus => requestFields .terminal
  | .noShow | .dismiss _ => requestFields .terminal ++ [.pool]
  | .markRead _ | .dismissOutbound _ => requestFields .terminal ++ [.messages]
  | .delete _ | .reply _ _ _ | .sendMessage _ _ => requestFields .terminal ++ [.messages, .pool]
  | .setPriority _ _ => requestFields .terminal ++ [.alarm]
  | .alarmCancel => requestFields .terminal ++ [.alarm, .closed, .meter]
  | .airFrameDropped _ _ =>
    [.draws, .offers, .terminal, .duty, .closed, .totals, .radio, .pool, .messages, .trip, .alarm, .meter]
  | .cycleHead _ _ => [.draws, .offers, .terminal, .duty, .closed, .totals, .radio, .pool, .messages]
  | .backoffEnd _ => [.radio]
  | .retryLimitReached _ => [.duty, .terminal, .radio, .pool, .messages]
  | .linkLost => [.now, .radio, .terminal]
  | .contentionSlot | .reservedSlot _ | .blindTransmissionEnd => [.now, .radio]
  | .transmissionEnd => [.now, .radio, .closed]
  | .offer _ _ => [.pool, .offers, .terminal, .radio]
  | .award _ _ => [.pool, .duty, .terminal, .offers, .radio]
  | .lost _ _ => [.offers, .terminal, .radio]
  | .awardTimerExpiry _ => [.now, .offers, .terminal, .radio]
  | .withdraw _ _ | .jobCancel _ _ => [.pool, .duty, .trip, .terminal, .offers, .radio]
  | .poll _ => [.radio, .duty]
  | .statusIntervalExpiry => [.now, .radio, .duty]
  | .message _ _ _ _ => [.pool, .messages, .terminal, .radio]
  | .alertSeen _ => [.alarm, .meter, .terminal]
  | .standDown _ => [.alarm, .radio, .closed, .meter, .terminal]
  | .beaconHold _ _ => [.alarm]
  | .cancelWindowExpiry | .beaconCycleStart => [.now, .alarm]
  | .beaconBurst => [.now, .alarm, .radio]
  | .alarmLineLevel _ _ => [.alarm, .radio, .trip, .offers, .terminal, .meter]
  | .lineArmed _ _ => [.alarm]
  | .alarmLineStuck _ => [.alarm, .faults, .meter]
  | .resumeWindowExpiry => [.now, .resumeDue]
  | .presenceTimerExpiry => [.now, .radio, .duty, .offers, .terminal]
  | .deadlineExpiry _ => [.now, .offers, .terminal]
  | .clockTick => [.tariff]
  | .vmainLossOrReset .kept | .vmainLossOrReset .lost | .vmainLossOrReset .activeDamaged | .vmainLossOrReset .pendingDamaged
  | .vmainLossOrReset .bothDamaged =>
    [.power, .now, .handed, .dist, .evalDue, .tariff, .resumeDue, .duty, .pool, .offers, .messages, .alarm, .radio, .meter,
     .terminal]
  | .vmainLossOrReset (.leftByStart _) | .start =>
    [.power, .now, .handed, .dist, .evalDue, .tariff, .trip, .resumeDue, .closed, .totals, .duty, .pool, .offers, .messages,
     .alarm, .radio, .meter, .terminal, .settings, .faults]

/-! ## Terms of the rules that the claims use -/

/-- The state after n pulses on DIST. -/
def afterPulses : Nat → State → State
  | 0, s => s
  | n + 1, s =>
    match exec .distPulse (afterPulses n s) with
    | .next t => t
    | .fault _ => s
    | .refused _ => s

/-- What of a trip's record is its legal fare: all but the job it serves and the emergency mark. -/
def Trip.legal (t : Trip) : Trip := { t with job := none, emergency := false }

/-- One step as the loop of R12 charges it: P falls by Rm, a step at A of the band in use, Rm becomes its U, and a pending band takes effect at
once (R13). -/
def Trip.loopStep (img : Image) (t : Trip) : Trip :=
  let charged := { t.charge 1 (img.band t.band).a with progress := t.progress - t.remaining, remaining := (img.band t.band).units }
  match t.pendingBand with
  | none => charged
  | some n => charged.changeBand img n

/-- The loop of R12 as the rule words it: while P is at least Rm, one step. The fuel bounds the number of turns. -/
def stepLoop (img : Image) : Nat → Trip → Trip
  | 0, t => t
  | fuel + 1, t => if t.progress < t.remaining then t else stepLoop img fuel (t.loopStep img)

/-- The Fault Log with an entry of a kind placed, if it is (R180): of 16 entries held the oldest is first removed. -/
def logFault (placed : Bool) (kind : FaultKind) (time : ClockReading) (active : Bool) (log : List FaultEntry) : List FaultEntry :=
  if placed then (if log.length < 16 then log else log.drop (log.length - 15)) ++ [⟨kind, time, active⟩] else log

/-- A reply held by a port. -/
def PortState.withReply (v : PortState) (code : Nat) (r : Result) (data : List Byte) : PortState := { v with buffer := .held code r data }

/-- A command of a port can be taken now: the part is supplied, and no other request of the port is PENDING (R166, R178). -/
abbrev Takes (p : Port) (c : Instr) (s : State) : Prop := s.power = .up ∧ canTake p c s = true

/-- The state u with the reply to a request HELD in the port's buffer under the request's command code (R167), and the check value of the Retained
Domain brought up to date (R178). -/
def replied (p : Port) (c : Instr) (r : Result) (data : List Byte) (u : State) : State :=
  sealDomain (setBuffer p (.held (commandCode c) r data) u)

/-- The frame of a downlink command reaches its owner now: the part is supplied and hears it (R143 to R145). -/
abbrev Delivered (c : Instr) (s : State) : Prop := s.power = .up ∧ hears s c = true

/-- What a read that is taken answers in the state it finds (R30, R34, R46, R56, R61, R72, R78, R108, R115, R122, R142, R152, R174, R181). -/
def readAnswer (u : State) : Instr → Option (Result × List Byte)
  | .readTrip _ => some (.ok, tripData u)
  | .readTotals => some (.ok, totalsData u.totals)
  | .readTariffCheck => some (.ok, tariffCheckData u.tariff)
  | .readClock => some (.ok, clockBytes u.tariff.clock)
  | .readInstallation => some (.ok, installationData u.settings)
  | .readEmergency => some (.ok, emergencyData u)
  | .readFaults => some (.ok, faultsData u.faults)
  | .readPriorities => some (.ok, levelsData (shownLevels u))
  | .readStatus => some (.ok, statusData u)
  | .readClosed n => some (positionAnswer 8 n (u.closed[n - 1]?.map closedData))
  | .readOffer n => some (positionAnswer 8 n (u.offers.entries[n - 1]?.map (offerData u)))
  | .readMessage n => some (positionAnswer 16 n (u.messages.inbound[n - 1]?.map (inboundData u.pool)))
  | .readOutbound n => some (positionAnswer 6 n (u.messages.outbound[n - 1]?.map (outboundData u.pool)))
  | .readJob 0 => some (positionAnswer 1 1 (u.duty.current.map (jobData u.pool)))
  | .readJob 1 => some (positionAnswer 1 1 (u.duty.next.map (jobData u.pool)))
  | .readJob _ => some (.badValue, [])
  | _ => none
where
  /-- BAD VALUE for a position outside 1 to the bound, NOT FOUND where nothing stands, else OK with the data. -/
  positionAnswer (bound n : Nat) (data : Option (List Byte)) : Result × List Byte :=
    if 1 ≤ n ∧ n ≤ bound then (match data with
      | some d => (.ok, d)
      | none => (.notFound, []))
    else (.badValue, [])

/-- The state after a list of commands, where each answers a next state. -/
def afterCommands : List Instr → State → State
  | [], s => s
  | c :: rest, s =>
    match exec c s with
    | .next t => afterCommands rest t
    | .fault _ => s
    | .refused _ => s

/-- The four LOAD TARIFF PART commands that carry an image, and the COMMIT TARIFF that names its check value (R25, R27, R28, 11.4). -/
def loadCommands (i : Image) : List Instr :=
  [.loadTariffPart 0 ((part0Bytes i.version i.band1 i.band2).drop 1), .loadTariffPart 1 ((part1Bytes i.band3 i.band4).drop 1),
   .loadTariffPart 2 ((part2Bytes i.schedule).drop 1), .loadTariffPart 3 ((part3Bytes i.extras).drop 1),
   .commitTariff (imageCheck i).toNat]

/-- The seconds since Monday 00:00:00 that a clock shows (R32). -/
def ClockReading.secondOfWeek (c : ClockReading) : Nat := (((c.day - 1) * 24 + c.hour) * 60 + c.minute) * 60 + c.second

/-- The decline reason that the entry filter gives an offer, if it gives one, as R91 orders its conditions. -/
def filterReason (s : State) (stackable : Bool) : Option DeclineReason :=
  if s.duty.signedOn = false then some .notSignedOn
  else if inEmergency s then some .unavailable
  else if s.duty.presence ≠ .present then some .terminalAbsent
  else if s.duty.state = .vacant ∨ (s.duty.state = .clearing ∧ stackable = true ∧ s.duty.next = none) then none
  else some .busy

/-- All the laws that every step keeps. -/
def Lawful (s : State) : Prop :=
  DutyLaw s ∧ OfferLaw s ∧ MessageLaw s ∧ PoolLaw s ∧ ClosedLaw s ∧ EmergencyLaw s ∧ QueueLaw s ∧ FareLaw s ∧ SettingsLaw s ∧ DomainLaw s

end Sys2Proof.Machine
end

