-- ==== Sys2Proof/Certificates/Slice0/Obligations.lean ====
section
/-! DEFINITION. The statements about the machine, each from the rules it names. A state and operands meeting the hypotheses of each stand in
Sys2Proof/Tests/Slice0.lean. -/

open Sys2Proof Sys2Proof.Machine

/-! ## The machine as a whole -/

/-- A step takes the command at the front of the queue and runs it with the queue's rest (the model's form, log 1). On an empty queue the part acts of
itself (the model's choice, log 2): down it rests; up, with no request handed on, it takes the first of its own events that have fallen due, and lets its
time base advance by one millisecond when none has. An event falls due at the end of a transmission, at the expiry of a timer, at the instant of a beacon
burst or cycle, at the start of its slot, for a link timer once no slot transmission is in progress, and at no other time; of several, which is the first
is the model's choice (log 2). A request handed on goes before them all, which O22 states. -/
def Obligations.StepTakesTheFrontCommand : Prop :=
  (∀ (c : Instr) (rest : List Instr) (s : State), s.pending = c :: rest → step s = exec c { s with pending := rest }) ∧
  (∀ s : State, s.pending = [] → s.power = .down → step s = .next s) ∧
  (∀ s : State, s.pending = [] → s.power = .up → s.handed = [] →
    (∀ c others, dueEvents s = c :: others → step s = exec c s) ∧
    (dueEvents s = [] → step s = .next { s with now := s.now + 1 })) ∧
  ∀ (c : Instr) (s : State), c ∈ dueEvents s ↔ match c with
    | .transmissionEnd => ∃ t, s.radio.tx = some t ∧ t.kind ≠ .blind ∧ t.ends ≤ s.now
    | .blindTransmissionEnd => ∃ t, s.radio.tx = some t ∧ t.kind = .blind ∧ t.ends ≤ s.now
    | .cancelWindowExpiry => ∃ due, s.alarm.cancelDue = some due ∧ due ≤ s.now
    | .evaluation => ∃ due, s.evalDue = some due ∧ due ≤ s.now
    | .resumeWindowExpiry => ∃ due, s.resumeDue = some due ∧ due ≤ s.now
    | .statusIntervalExpiry => ∃ due, s.duty.statusDue = some due ∧ due ≤ s.now
    | .presenceTimerExpiry => ∃ due, s.duty.presenceDue = some due ∧ due ≤ s.now
    | .deadlineExpiry n => ∃ o ∈ s.offers.entries, o.number = n ∧ ∃ due, o.deadlineDue = some due ∧ due ≤ s.now
    | .awardTimerExpiry n => ∃ o ∈ s.offers.entries, o.number = n ∧ ∃ due, o.awardDue = some due ∧ due ≤ s.now
    | .beaconCycleStart => s.alarm.record.state ≠ .normal ∧ (∃ n, s.alarm.record.position = some (n, .space)) ∧
      ∃ cycle, s.alarm.cycle = some cycle ∧ cycle.due ≤ s.now
    | .beaconBurst => s.alarm.record.state ≠ .normal ∧ (∃ n, s.alarm.record.position = some (n, .mark)) ∧
      ∃ cycle, s.alarm.cycle = some cycle ∧ cycle.due ≤ s.now
    | .contentionSlot => s.radio.tx = none ∧ ∃ p, s.radio.plan = some p ∧ p.contentionDone = false ∧ p.headEnd + p.drawn * p.ts = s.now
    | .reservedSlot j => s.radio.tx = none ∧ ∃ p, s.radio.plan = some p ∧ p.nextReserved ≤ j ∧ p.grants[j]? = some s.settings.cab ∧
      p.headEnd + p.slots * p.ts + j * p.tl = s.now
    | .linkLost => slotTransmission s = false ∧ ∃ due, s.radio.linkDue = some due ∧ due ≤ s.now
    | _ => False

/-- No command and no step ends in a fault or a refusal: each answers a next state. -/
def Obligations.EveryCommandCompletes : Prop :=
  (∀ (c : Instr) (s : State), ∃ t, exec c s = .next t) ∧ ∀ s : State, ∃ t, step s = .next t

/-- A command changes only the parts of the state listed for it, and leaves a part that is up with a check value that agrees with the Retained
Domain (R178); the running clock alone leaves that value as it is. -/
def Obligations.CommandsChangeOnlyTheirFields : Prop :=
  ∀ (c : Instr) (s t : State), exec c s = .next t → changesOnly (mayChange c) s t ∧
    (t.power = .up → c ≠ .clockTick → t.domainCheck = computeDomainCheck t) ∧ (c = .clockTick → t.domainCheck = s.domainCheck)

/-- The legal fare is out of reach of the terminal controller and of the air: none of their commands changes the tariff, the settings, the
Fault Log, the metres not yet charged, the evaluation timer or the legal figures of the trip (00 section 1). -/
def Obligations.TerminalAndAirCannotTouchTheFare : Prop :=
  ∀ (c : Instr) (s t : State), fromTerminalOrAir c = true → exec c s = .next t →
    changesOnly [.draws, .handed, .trip, .closed, .totals, .duty, .pool, .offers, .messages, .alarm, .radio, .meter, .terminal] s t ∧
    t.trip.map Trip.legal = s.trip.map Trip.legal

/-- A command request received while another is PENDING is dropped, its only effects the idle byte on data out and the sign of the terminal; every
other is taken, and its owner's reply stands HELD under the request's command code (R165 to R167). -/
def Obligations.RequestsAreDroppedOrAnswered : Prop :=
  ∀ (c : Instr) (p : Port) (s : State), s.power = .up → requestPort c = some p →
    (canTake p c s = false → exec c s = .next (sealDomain (signOf p (setPort p { portState p s with answer := [0x00] } s)))) ∧
    (canTake p c s = true → ∃ t r data, exec c s = .next t ∧ (portState p t).buffer = .held (commandCode c) r data)

/-! ## The laws that every step keeps -/

/-- Every law holds right after a cold start (the model's own fields at the values of log 7). -/
def Obligations.LawsHoldAtReset : Prop := Lawful State.reset

/-- Every step keeps the agreement of the duty state with the flag, the trip, the job slots, presence and the timers (R62, R66, R74, R77). -/
def Obligations.DutyLawIsKept : Prop := ∀ s t : State, DutyLaw s → step s = .next t → DutyLaw t

/-- Every step keeps the Offer Table's capacity, the uniqueness of its numbers and the single acceptance (R88, R107). -/
def Obligations.OfferLawIsKept : Prop := ∀ s t : State, OfferLaw s → step s = .next t → OfferLaw t

/-- Every step keeps the capacities and the uniqueness of the message lists (R109, R110, R117). -/
def Obligations.MessageLawIsKept : Prop := ∀ s t : State, MessageLaw s → step s = .next t → MessageLaw t

/-- Every step keeps the accounting of the 64 text blocks (R79), in states in which offers, messages and jobs are lawful. -/
def Obligations.PoolLawIsKept : Prop :=
  ∀ s t : State, DutyLaw s → OfferLaw s → MessageLaw s → PoolLaw s → step s = .next t → PoolLaw t

/-- Every step keeps the closed-trip list's capacity and the law of its pinned and reported entries (R51, R53, R54, R55, R58). -/
def Obligations.ClosedLawIsKept : Prop := ∀ s t : State, ClosedLaw s → step s = .next t → ClosedLaw t

/-- Every step keeps the law of the emergency record, the beacon and the two copies of the levels (R126, R129, R152). -/
def Obligations.EmergencyLawIsKept : Prop := ∀ s t : State, EmergencyLaw s → step s = .next t → EmergencyLaw t

/-- Every step keeps the law of the Uplink Queue's positions, states and sequences and of the transmitter (R149, R154 to R156, R162, R163). -/
def Obligations.QueueLawIsKept : Prop := ∀ s t : State, QueueLaw s → step s = .next t → QueueLaw t

/-- Every step keeps the tariff's ranges and the trip's figures within their bounds (R5, R7, R12, R14, R23, R24, R38, R42). -/
def Obligations.FareLawIsKept : Prop := ∀ s t : State, FareLaw s → step s = .next t → FareLaw t

/-- Every step keeps the ranges of the settings, the clock, the counters and the Fault Log (10.5, R1, R32, R36, R60, R180), and the agreement of the
Retained Domain's check value with its contents (R178). -/
def Obligations.SettingsLawIsKept : Prop :=
  ∀ s t : State, step s = .next t → (SettingsLaw s → SettingsLaw t) ∧ (DomainLaw s → DomainLaw t)

/-! ## Distance and fare (01) -/

/-- A pulse on DIST: ignored while K is unset; otherwise the remainder rises by 1,000 modulo K and each metre so counted goes where the trip
state sends it (R1, R2, R22). -/
def Obligations.PulseCountsMetres : Prop :=
  ∀ s : State, s.power = .up →
    (s.settings.k = 0 → exec .distPulse s = .next (sealDomain s)) ∧
    (s.settings.k ≠ 0 → ∀ m, m = (s.dist.remainder + 1000) / s.settings.k →
      exec .distPulse s = .next (sealDomain { s with
        dist := {
          remainder := (s.dist.remainder + 1000) % s.settings.k
          metres :=
            if tripRunning s ∧ s.tariff.active.isSome then min (s.dist.metres + m) 65535
            else if tripRunning s ∧ m ≠ 0 then 0 else s.dist.metres }
        totals := { s.totals with
          distance := min (s.totals.distance + m) 999999999
          hired := if tripRunning s then min (s.totals.hired + m) 999999999 else s.totals.hired } }))

/-- Pulses on DIST and K (R1): while K is unset they are ignored; otherwise the remainder stays below K, and after n pulses from a remainder of 0 the
Distance Counter has counted floor(n × 1,000 / K) metres, with the rest carried, which the total-distance totalizer counts up to its bound. -/
def Obligations.PulsesCountByCalibration : Prop :=
  ∀ (n : Nat) (s : State), s.power = .up →
    (s.settings.k = 0 → changesOnly [] s (afterPulses n s)) ∧
    (s.settings.k ≠ 0 → s.dist.remainder < s.settings.k → (afterPulses n s).dist.remainder < s.settings.k) ∧
    (s.settings.k ≠ 0 → s.dist.remainder = 0 → s.totals.distance ≤ 999999999 →
      (afterPulses n s).dist.remainder = n * 1000 - s.settings.k * (n * 1000 / s.settings.k) ∧
      (afterPulses n s).totals.distance = min (s.totals.distance + n * 1000 / s.settings.k) 999999999)

/-- The loop of R12, with the change of band of R13 and the bound of R14, and its closed form in the model are one: they charge the same steps
at the same amounts and end with the same trip. -/
def Obligations.StepLoopHasItsClosedForm : Prop :=
  ∀ (img : Image) (t : Trip) (fuel : Nat), img.inRange = true → 1 ≤ t.remaining → t.progress ≤ fuel →
    stepLoop img fuel t = t.chargeSteps img

/-- An evaluation of a RUNNING trip under an active image (R7 to R15, R35): the timer runs on, the metres are taken and clamped to 200, the units of
the second are those of the band's mode, and the loop of R12 charges the steps they reach. The first lookup under an unset clock and the first clamp
of the trip are logged, and the notices FAULT, STEP, TRIP and BAND CHANGED are placed. Given early, the row brings the time base to the expiry
(the model's choice, log 3). -/
def Obligations.EvaluationChargesTheSecond : Prop :=
  ∀ (s : State) (t : Trip) (i : StoredImage) (due d units : Nat) (b : Band) (pendingBand : Option Nat) (unset fast : Bool),
    s.power = .up → s.evalDue = some due → s.trip = some t → t.phase = .running → s.tariff.active = some i → i.image.inRange = true →
    1 ≤ t.remaining → b = i.image.band t.band → d = min s.dist.metres 200 →
    units = (match b.mode with
      | .single => max (d * b.tstep) (10 * b.dstep)
      | .double => d * b.tstep + 10 * b.dstep) →
    pendingBand = (if t.mode = .auto then
        (if bandLookup i.image s.tariff.clock = t.band then none else some (bandLookup i.image s.tariff.clock))
      else t.pendingBand) →
    unset = (decide (t.mode = .auto) && !s.tariff.clock.isSet && !s.tariff.clockUnsetMark) →
    fast = (decide (200 < s.dist.metres) && !t.speedFault) →
    ∃ v, exec .evaluation s = .next v ∧
      changesOnly [.now, .evalDue, .trip, .dist, .tariff, .faults, .meter, .terminal] s v ∧
      v.now = max s.now due ∧ v.evalDue = some (due + 1000) ∧ v.dist = { s.dist with metres := 0 } ∧
      v.tariff = { s.tariff with clockUnsetMark := s.tariff.clockUnsetMark || (decide (t.mode = .auto) && !s.tariff.clock.isSet) } ∧
      v.trip = some (stepLoop i.image (t.progress + units) { t with
        pendingBand := pendingBand
        distance := min (t.distance + d) 999999999
        speedFault := t.speedFault || decide (200 < s.dist.metres)
        progress := t.progress + units
        waiting :=
          if b.mode = .double ∨ d * b.tstep < 10 * b.dstep then min (t.waiting + 1) 999999999 else t.waiting }) ∧
      v.faults = logFault fast .speedImplausible s.tariff.clock true (logFault unset .clockNotSet s.tariff.clock true s.faults) ∧
      v.meter = { s.meter with notices := s.meter.notices ||| (if unset || fast then 0x20 else 0) |||
        (if t.remaining ≤ t.progress + units then (if pendingBand.isSome then 0x03 else 0x01) else 0) } ∧
      v.terminal = { s.terminal with notices := s.terminal.notices ||| (if t.remaining ≤ t.progress + units then 0x40 else 0) }

/-- The band that the schedule puts in force (R35): band 1 while the clock is unset or nothing qualifies; otherwise that of a qualifying entry
than which none that qualifies starts later. -/
def Obligations.LookupTakesTheLatestEntry : Prop :=
  ∀ (img : Image) (c : ClockReading),
    (c.isSet = false → bandLookup img c = 1) ∧
    ((∀ e ∈ img.schedule, e.qualifies c.day c.minuteOfDay = false) → bandLookup img c = 1) ∧
    (c.isSet = true → ∀ x ∈ img.schedule, x.qualifies c.day c.minuteOfDay = true →
      ∃ before e after, img.schedule = before ++ e :: after ∧ e.qualifies c.day c.minuteOfDay = true ∧ bandLookup img c = e.band ∧
        (∀ y ∈ before, y.qualifies c.day c.minuteOfDay = true → y.start ≤ e.start) ∧
        ∀ y ∈ after, y.qualifies c.day c.minuteOfDay = true → y.start < e.start)

/-! ## The ports (10) -/

/-- How a port's command reaches its owner: one already handed on is so no longer; for one received now the idle byte 0x00 was driven on data out, and
on the Terminal Port, while the cab is signed on, it is a sign of the terminal, which restarts the presence timer of 30 s and ends an absence
(R77, R165, R166). -/
def Obligations.TerminalFramesAreSignsOfTheTerminal : Prop :=
  ∀ (p : Port) (c : Instr) (s w : State), w = { s with terminal := { s.terminal with answer := [0x00] } } →
    ((p, .command c) ∈ s.handed → arrived p c s = { s with handed := s.handed.erase (p, .command c) }) ∧
    ((.meter, .command c) ∉ s.handed → arrived .meter c s = { s with meter := { s.meter with answer := [0x00] } }) ∧
    ((.terminal, .command c) ∉ s.handed → s.duty.signedOn = false → arrived .terminal c s = w) ∧
    ((.terminal, .command c) ∉ s.handed → s.duty.signedOn = true → s.duty.presence ≠ .absent →
      arrived .terminal c s = { w with duty := { s.duty with presenceDue := some (s.now + 30000) } }) ∧
    ((.terminal, .command c) ∉ s.handed → s.duty.signedOn = true → s.duty.presence = .absent →
      arrived .terminal c s =
        dutyChanged .presence { w with duty := { s.duty with presence := .present, presenceDue := some (s.now + 30000) } })

/-- REQUEST_FRAME_RECEIVED (R165 to R167): the two immediate requests by their length byte; during any other the idle byte is driven; a frame cut short
is discarded; one received complete is dropped while one is PENDING, answered at once when a check fails, and otherwise handed on with the buffer
PENDING, a SET INSTALLATION of an unknown item too (R173). What is so handed on is what a step with an empty queue takes (the model's choice, log 2):
the command, or the unknown item's refusal. A transaction without a length byte that a code of an immediate request began leaves data out as it was
(the model's choice, log 25). -/
def Obligations.RequestFramesAreCheckedAndHandedOn : Prop :=
  ∀ (p : Port) (code len : Byte) (rest args : List Byte) (s w u : State), s.power = .up → args = rest.take len.toNat →
    w = setPort p { portState p s with answer := [0x00] } s → u = signOf p w →
    (code = 0x01 → exec (.requestFrameReceived p (code :: len :: rest)) s = exec (.readReply p) s) ∧
    (code = 0x02 → exec (.requestFrameReceived p (code :: len :: rest)) s = exec (.readNotices p) s) ∧
    (code ≠ 0x01 → code ≠ 0x02 → rest.length < len.toNat →
      exec (.requestFrameReceived p (code :: len :: rest)) s = .next (sealDomain w)) ∧
    (code ≠ 0x01 → code ≠ 0x02 → exec (.requestFrameReceived p [code]) s = .next (sealDomain w)) ∧
    (code = 0x01 ∨ code = 0x02 → exec (.requestFrameReceived p [code]) s = .next (sealDomain s)) ∧
    (exec (.requestFrameReceived p []) s = .next (sealDomain s)) ∧
    (code ≠ 0x01 → code ≠ 0x02 → len.toNat ≤ rest.length →
      exec (.requestFrameReceived p (code :: len :: rest)) s = .next (sealDomain (
        if bufferPending p s then u
        else match checkRequest p code.toNat args with
          | .badFrame => setBuffer p (.held code.toNat .badFrame []) u
          | .notPermitted => setBuffer p (.held code.toNat .notPermitted []) u
          | .badItem => setBuffer p (.pending code.toNat) { u with handed := u.handed ++ [(p, .unknownItem)] }
          | .take i => setBuffer p (.pending code.toNat) { u with handed := u.handed ++ [(p, .command i)] }))) ∧
    (∀ q i others, s.pending = [] → s.handed = (q, .command i) :: others → step s = exec i s) ∧
    (∀ q others, s.pending = [] → s.handed = (q, .unknownItem) :: others →
      step s = .next (sealDomain (setBuffer q (.held 0x1E .badValue []) { s with handed := others })))

/-- READ_REPLY, READ_NOTICES and SET_NOTICES (R165, R167, R170): the buffer is driven and kept; the notice set is driven whole and cleared, with the
sign of the terminal before or after that (log 12); the enable set takes only kinds of the port's list. -/
def Obligations.RepliesAndNoticesAreFetched : Prop :=
  ∀ (p : Port) (s : State), s.power = .up →
    exec (.readReply p) s =
      .next (sealDomain (setPort p { portState p (signOf p s) with answer := replyBytes (portState p s).buffer } (signOf p s))) ∧
    (∀ taken : State → State,
      taken = (fun x => setPort p { portState p x with answer := [(portState p x).notices], notices := 0 } x) →
      (exec (.readNotices p) s = .next (sealDomain (taken (signOf p s))) ∨
        exec (.readNotices p) s = .next (sealDomain (signOf p (taken s)))) ∧
      (p = .meter → exec (.readNotices p) s = .next (sealDomain (taken s)))) ∧
    (∀ e u, Takes p (.setNotices p e) s → u = arrived p (.setNotices p e) s →
      (e < (match p with
        | .meter => 64
        | .terminal => 256) →
        exec (.setNotices p e) s =
          .next (replied p (.setNotices p e) .ok [] (setPort p { portState p u with enabled := BitVec.ofNat 8 e } u))) ∧
      ((match p with
        | .meter => 64
        | .terminal => 256) ≤ e → exec (.setNotices p e) s = .next (replied p (.setNotices p e) .badValue [] u)))

/-- Every read that is taken leaves the state it finds as it was and answers its data under its own command code (R30, R34, R46, R56, R61, R72, R78,
R108, R115, R122, R142, R152, R174, R181; the layouts that R177 leaves open are those of log 13). -/
def Obligations.ReadsAnswerAndChangeNothing : Prop :=
  ∀ (p : Port) (c : Instr) (s u : State) (r : Result) (data : List Byte), Takes p c s → u = arrived p c s → requestPort c = some p →
    readAnswer u c = some (r, data) → exec c s = .next (replied p c r data u)

/-! ## Trips (03) -/

/-- FLAG DOWN (R6, R39, R40, R63, R95): one that is permitted opens the trip, whose record starts from the flag-down band; the evaluation timer runs, the
cab is HIRED with its current job taken over, and no offer stays open: an accepted one is ABANDONED with a RELEASE, an OFFERED one declined with a
DECLINE, as far as the general positions go. The ACCEPT entry of an ABANDONED offer leaves the Uplink Queue (R95, R101), one that is SENDING when its
transmission ends, with nothing to follow it. The notices TRIP, DUTY, JOB and OFFER are placed, and the first lookup under an unset clock is logged
(its trip-active flag is log 11). Its conditions are tried in the order of R39; log 16 holds for a mode byte that is neither AUTO nor FIXED. -/
def Obligations.FlagDownOpensTheTrip : Prop :=
  (∀ (mode n b : Nat) (m : BandMode) (i : StoredImage) (s u : State) (unset : Bool),
    Takes .meter (.flagDown mode n) s → u = arrived .meter (.flagDown mode n) s → u.trip = none → u.tariff.active = some i →
    u.settings.cab ≠ 0 → u.settings.fleet ≠ 0 → u.settings.k ≠ 0 →
    ((mode = 0 ∧ m = .auto ∧ b = bandLookup i.image u.tariff.clock) ∨ (mode = 1 ∧ 1 ≤ n ∧ n ≤ 4 ∧ m = .fixed ∧ b = n)) →
    unset = (decide (m = .auto) && !u.tariff.clock.isSet && !u.tariff.clockUnsetMark) →
    ∃ v, exec (.flagDown mode n) s = .next (replied .meter (.flagDown mode n) .ok [] v) ∧
      changesOnly [.trip, .evalDue, .dist, .terminal, .tariff, .faults, .meter, .pool, .duty, .offers, .radio] u v ∧
      v.trip = some {
        phase := .running, mode := m, flagDownBand := b, band := b, pendingBand := none, progress := 0
        remaining := if (i.image.band b).d0 = 0 then (i.image.band b).dstep * (i.image.band b).tstep
          else (i.image.band b).d0 * (i.image.band b).tstep
        flagDownTime := u.tariff.clock, f0 := (i.image.band b).f0, fare := (i.image.band b).f0, steps := 0, distance := 0, waiting := 0
        extras := [], job := if u.duty.state = .assigned then u.duty.current.map (fun j => ⟨j.number, false⟩) else none
        interruptions := 0, saturated := false, speedFault := false, emergency := inEmergency u } ∧
      v.evalDue = some (u.now + 1000) ∧ v.dist = { u.dist with metres := 0 } ∧
      v.tariff = { u.tariff with clockUnsetMark := u.tariff.clockUnsetMark || (decide (m = .auto) && !u.tariff.clock.isSet) } ∧
      v.duty = { u.duty with
        state := .hired, current := none
        statusDue := if u.duty.signedOn then some (u.now + u.settings.statusInterval * 1000) else u.duty.statusDue } ∧
      v.pool = releaseBlocks ((u.duty.current.map (fun j => j.text.blocks)).getD []) u.pool ∧
      v.offers = { u.offers with entries := u.offers.entries.map (fun o => { o with state := match o.state with
        | .offered _ => .declined ((filterReason { u with duty := { u.duty with state := .hired } } o.stackable).getD .busy)
        | .accepting _ => .abandoned
        | .awaitingAward _ => .abandoned
        | x => x }) } ∧
      v.radio = { u.radio with queue := v.radio.queue, nextArrival := v.radio.nextArrival } ∧
      v.radio.holds .status = true ∧
      v.faults = logFault unset .clockNotSet u.tariff.clock Config.flagDownFaultIsActive u.faults ∧
      v.meter = { u.meter with notices := u.meter.notices ||| (if unset then 0x20 else 0) } ∧
      v.terminal = { u.terminal with notices := u.terminal.notices ||| 0x50 ||| (if u.duty.current.isSome then 0x02 else 0) |||
        (if u.offers.entries.any (fun o => !o.final) then 0x01 else 0) } ∧
      (∀ o ∈ u.offers.entries, o.accepted = true → v.radio.hasRelease o.number = true ∨ 8 ≤ v.radio.generalCount) ∧
      ((∃ o ∈ u.offers.entries, o.accepted = true) →
        ∀ e ∈ v.radio.queue, e.kind = .accept → e.state = .sending ∧ e.removed = true ∧ e.deferred = none) ∧
      (∀ o ∈ u.offers.entries, o.deadlineDue.isSome → v.radio.hasDecline o.number = true ∨ 8 ≤ v.radio.generalCount)) ∧
  (∀ (mode n : Nat) (s u : State), Takes .meter (.flagDown mode n) s → u = arrived .meter (.flagDown mode n) s →
    (u.trip.isSome → exec (.flagDown mode n) s = .next (replied .meter (.flagDown mode n) .refusedState [] u)) ∧
    (u.trip = none → ¬(mode = 0 ∨ (mode = 1 ∧ 1 ≤ n ∧ n ≤ 4)) →
      exec (.flagDown mode n) s = .next (replied .meter (.flagDown mode n) .badValue [] u)) ∧
    (u.trip = none → (mode = 0 ∨ (mode = 1 ∧ 1 ≤ n ∧ n ≤ 4)) → u.tariff.active = none →
      exec (.flagDown mode n) s = .next (replied .meter (.flagDown mode n) .noTariff [] u)) ∧
    (u.trip = none → (mode = 0 ∨ (mode = 1 ∧ 1 ≤ n ∧ n ≤ 4)) → u.tariff.active.isSome →
      (u.settings.cab = 0 ∨ u.settings.fleet = 0 ∨ u.settings.k = 0) →
      exec (.flagDown mode n) s = .next (replied .meter (.flagDown mode n) .noIdentity [] u)))

/-- STOP (R9, R15 to R17, R22, R41): a partial evaluation of distance alone, with the fault SPEED IMPLAUSIBLE at the first clamp of the trip and the
notices FAULT, STEP and BAND CHANGED as an evaluation places them, then the total of the greater of the fare and the minimum of the flag-down band plus
the extras, with the notice TRIP; a held fare is stopped at the computed fare; in any other state it is refused. -/
def Obligations.StopFixesTheAmountDue : Prop :=
  ∀ s u : State, Takes .meter .stop s → u = arrived .meter .stop s →
    (∀ (t a : Trip) (i : StoredImage) (d total : Nat) (fast : Bool), u.trip = some t → t.phase = .running → u.tariff.active = some i →
      i.image.inRange = true → 1 ≤ t.remaining → d = min u.dist.metres 200 → fast = (decide (200 < u.dist.metres) && !t.speedFault) →
      a = stepLoop i.image (t.progress + d * (i.image.band t.band).tstep) { t with
        distance := min (t.distance + d) 999999999
        speedFault := t.speedFault || decide (200 < u.dist.metres)
        progress := t.progress + d * (i.image.band t.band).tstep } →
      total = max a.fare (i.image.band a.flagDownBand).fmin + extrasSum i.image a.extras →
      ∃ v, exec .stop s = .next (replied .meter .stop .ok [] v) ∧
        changesOnly [.trip, .dist, .evalDue, .resumeDue, .faults, .meter, .terminal] u v ∧
        v.trip = some { a with phase := .stopped total ((i.image.band a.flagDownBand).fmin - a.fare) } ∧
        v.dist = { u.dist with metres := 0 } ∧ v.evalDue = none ∧ v.resumeDue = some (u.now + 60000) ∧
        v.faults = logFault fast .speedImplausible u.tariff.clock true u.faults ∧
        v.meter = { u.meter with notices := u.meter.notices ||| (if fast then 0x20 else 0) |||
          (if t.remaining ≤ t.progress + d * (i.image.band t.band).tstep then (if t.pendingBand.isSome then 0x03 else 0x01) else 0) } ∧
        v.terminal = { u.terminal with notices := u.terminal.notices ||| 0x40 }) ∧
    (∀ t, u.trip = some t → t.phase = .running → u.tariff.active = none →
      exec .stop s = .next (replied .meter .stop .ok [] { u with
        trip := some { t with phase := .stopped t.fare 0 }
        evalDue := none
        resumeDue := some (u.now + 60000)
        terminal := { u.terminal with notices := u.terminal.notices ||| 0x40 } })) ∧
    (tripRunning u = false → exec .stop s = .next (replied .meter .stop .refusedState [] u))

/-- RESUME and the resume window (R18, R22, R42, R43): within 60 s of the STOP the trip runs on from the fare it had; after the expiry RESUME is TOO
LATE, and the expiry closes the window and does nothing else, but that the row, given early, brings the time base to the expiry (the model's
choice, log 3). -/
def Obligations.ResumeNeedsTheOpenWindow : Prop :=
  (∀ s u : State, Takes .meter .resume s → u = arrived .meter .resume s →
    (∀ t total uplift due, u.trip = some t → t.phase = .stopped total uplift → u.resumeDue = some due →
      exec .resume s = .next (replied .meter .resume .ok [] { u with
        trip := some { t with phase := .running }
        resumeDue := none
        evalDue := if u.tariff.active.isSome then some (u.now + 1000) else none
        terminal := { u.terminal with notices := u.terminal.notices ||| 0x40 } })) ∧
    (tripStopped u = true → u.resumeDue = none → exec .resume s = .next (replied .meter .resume .tooLate [] u)) ∧
    (tripStopped u = false → exec .resume s = .next (replied .meter .resume .refusedState [] u))) ∧
  ∀ s : State, s.power = .up →
    (∀ due, s.resumeDue = some due → exec .resumeWindowExpiry s = .next (sealDomain { s with now := max s.now due, resumeDue := none })) ∧
    (s.resumeDue = none → exec .resumeWindowExpiry s = .next (sealDomain s))

/-- CLEAR (R29, R44, R52, R54, R60, R64): a STOPPED trip is closed with its stopped total and counted, a pending tariff becomes active, the Duty Unit
leaves HIRED or CLEARING, and the trip state is IDLE; a next job becomes the current one with its blocks, and each OFFERED entry that no longer fits is
declined with a DECLINE, as far as the general positions go. The notices TRIP, DUTY, JOB, OFFER and TARIFF ACTIVE are placed as their rules say. In
any other state it is refused. -/
def Obligations.ClearClosesTheTrip : Prop :=
  ∀ s u : State, Takes .meter .clear s → u = arrived .meter .clear s →
    (∀ t total uplift, u.trip = some t → t.phase = .stopped total uplift →
      ∃ v, exec .clear s = .next (replied .meter .clear .ok [] v) ∧
        changesOnly [.resumeDue, .closed, .alarm, .totals, .radio, .tariff, .trip, .evalDue, .dist, .meter, .terminal, .pool, .duty, .offers] u v ∧
        v.trip = none ∧ v.evalDue = none ∧ v.resumeDue = none ∧ v.dist = { u.dist with metres := 0 } ∧
        v.closed = appendClosed (carriedIndex u) {
          count := 1, first := t.flagDownTime, last := u.tariff.clock, total := total, extras := tripExtras u.tariff.active t
          distance := t.distance, job := t.job.map TripJob.number, reported := false, pinned := u.alarm.record.pinIntent, unsent := true }
          u.closed ∧
        v.alarm = { u.alarm with record := { u.alarm.record with pinIntent := false } } ∧
        v.totals = { u.totals with
          trips := min (u.totals.trips + 1) 999999999
          fare := min (u.totals.fare + total) 999999999
          extras := min (u.totals.extras + tripExtras u.tariff.active t) 999999999
          steps := min (u.totals.steps + t.steps) 999999999 } ∧
        v.tariff = { u.tariff with active := u.tariff.pending.or u.tariff.active, pending := none } ∧
        v.duty = { u.duty with
          state := if u.duty.signedOn then (if u.duty.next.isSome then .assigned else .vacant) else .offDuty
          current := if u.duty.signedOn then u.duty.next.or u.duty.current else u.duty.current
          next := if u.duty.signedOn then none else u.duty.next
          soonClear := none
          statusDue := if u.duty.signedOn then some (u.now + u.settings.statusInterval * 1000) else u.duty.statusDue } ∧
        v.radio.holds .status = true ∧ v.radio.holds .fareTotal = true ∧
        v.pool = retagBlocks .currentJob
          (if u.duty.signedOn then (u.duty.next.map (fun j => j.text.blocks)).getD [] else []) u.pool ∧
        v.offers = { u.offers with entries := u.offers.entries.map (fun o => match o.state with
          | .offered _ => (match filterReason { u with duty := v.duty } o.stackable with
            | some r => { o with state := .declined r }
            | none => o)
          | _ => o) } ∧
        (∀ o ∈ u.offers.entries, o.deadlineDue.isSome → (filterReason { u with duty := v.duty } o.stackable).isSome →
          v.radio.hasDecline o.number = true ∨ 8 ≤ v.radio.generalCount) ∧
        v.meter = { u.meter with notices := u.meter.notices ||| (if u.tariff.pending.isSome then 0x04 else 0) } ∧
        v.terminal = { u.terminal with notices := u.terminal.notices ||| 0x50 |||
          (if u.duty.signedOn && u.duty.next.isSome then 0x02 else 0) |||
          (if u.offers.entries.any (fun o => o.deadlineDue.isSome && (filterReason { u with duty := v.duty } o.stackable).isSome) then 0x01
            else 0) }) ∧
    (tripStopped u = false → exec .clear s = .next (replied .meter .clear .refusedState [] u))

/-- Room for a closed trip is made by merging, and merging loses no amount (R51 to R53): from a list of at most 8 entries with at most one pinned, the
list with the new entry holds at most 8, and its totals, extras amounts, distances and trip counts each add up to the old ones and the new, as far as
they stay within the bound of an entry. A list of fewer than 8 only takes the new entry at its end. Of 8, the two merged are the oldest two that are
neither pinned nor carried by the FARE TOTAL, which carries the oldest unreported entry while it is queued (R57): the merged one stands at the place of the
older, with the older's first and the newer's last time, the saturating sums, no job number, and only its unsent flag set; every other entry is kept, in
its order. -/
def Obligations.MergingLosesNoAmount : Prop :=
  (∀ s : State, ((∀ e ∈ s.radio.queue, e.kind ≠ .fareTotal) → carriedIndex s = none) ∧
    ((∃ e ∈ s.radio.queue, e.kind = .fareTotal) → ∀ before x after, s.closed = before ++ x :: after →
      (∀ y ∈ before, y.reported = true) → x.reported = false → carriedIndex s = some before.length)) ∧
  ∀ (carried : Option Nat) (c : ClosedTrip) (closed : List ClosedTrip),
    closed.length ≤ 8 → closed.countP ClosedTrip.pinned ≤ 1 →
    (appendClosed carried c closed).length ≤ 8 ∧
    ((closed.map ClosedTrip.total).sum ≤ 999999999 →
      ((appendClosed carried c closed).map ClosedTrip.total).sum = (closed.map ClosedTrip.total).sum + c.total) ∧
    ((closed.map ClosedTrip.extras).sum ≤ 999999999 →
      ((appendClosed carried c closed).map ClosedTrip.extras).sum = (closed.map ClosedTrip.extras).sum + c.extras) ∧
    ((closed.map ClosedTrip.distance).sum ≤ 999999999 →
      ((appendClosed carried c closed).map ClosedTrip.distance).sum = (closed.map ClosedTrip.distance).sum + c.distance) ∧
    ((closed.map ClosedTrip.count).sum ≤ 255 →
      ((appendClosed carried c closed).map ClosedTrip.count).sum = (closed.map ClosedTrip.count).sum + c.count) ∧
    (closed.length < 8 → appendClosed carried c closed = closed ++ [c]) ∧
    (closed.length = 8 → ∃ before a between b after, closed = before ++ a :: between ++ b :: after ∧
      a.pinned = false ∧ carried ≠ some before.length ∧ b.pinned = false ∧ carried ≠ some (before.length + 1 + between.length) ∧
      (∀ k x, k < before.length + 1 + between.length → k ≠ before.length → closed[k]? = some x → x.pinned = true ∨ carried = some k) ∧
      appendClosed carried c closed = before ++ {
          count := min (a.count + b.count) 255, first := a.first, last := b.last, total := min (a.total + b.total) 999999999
          extras := min (a.extras + b.extras) 999999999, distance := min (a.distance + b.distance) 999999999, job := none
          reported := false, pinned := false, unsent := true } :: between ++ after ++ [c])

/-- ADD EXTRA (R19, R45): the count of the extra rises by one up to its maximum, where it is HELD; while STOPPED the total is computed again and the
uplift stays; an extra not present is a BAD VALUE. -/
def Obligations.ExtrasAreCountedAndPriced : Prop :=
  ∀ (n : Nat) (s u : State), Takes .meter (.addExtra n) s → u = arrived .meter (.addExtra n) s →
    (u.trip = none → exec (.addExtra n) s = .next (replied .meter (.addExtra n) .refusedState [] u)) ∧
    (∀ t, u.trip = some t →
      (extraMaximum u.tariff.active n = none → exec (.addExtra n) s = .next (replied .meter (.addExtra n) .badValue [] u)) ∧
      (∀ most, extraMaximum u.tariff.active n = some most → most ≤ extraCount n t.extras →
        exec (.addExtra n) s = .next (replied .meter (.addExtra n) .held [] u)) ∧
      (∀ most, extraMaximum u.tariff.active n = some most → extraCount n t.extras < most →
        ∃ a, exec (.addExtra n) s = .next (replied .meter (.addExtra n) .ok [] { u with
            trip := some a
            terminal := { u.terminal with notices := u.terminal.notices ||| 0x40 } }) ∧
          a = { t with extras := a.extras, phase := a.phase } ∧ extraCount n a.extras = extraCount n t.extras + 1 ∧
          (∀ m, m ≠ n → extraCount m a.extras = extraCount m t.extras) ∧
          (t.phase = .running → a.phase = .running) ∧
          ∀ total uplift, t.phase = .stopped total uplift → a.phase = .stopped (stoppedTotal u.tariff.active a) uplift))

/-! ## Tariff, clock and settings (02, 10.5) -/

/-- Every image in range can be loaded in its four parts and committed (R25 to R28, 11.4): while IDLE the COMMIT TARIFF makes it, field by field, the
active image under its check value, and while a trip is in progress the pending one. -/
def Obligations.EveryImageCanBeLoadedAndCommitted : Prop :=
  ∀ (i : Image) (s t : State), i.inRange = true → i.version < 65536 → s.power = .up → bufferPending .meter s = false →
    t = afterCommands (loadCommands i) s →
    changesOnly [.handed, .tariff, .meter] s t ∧
    t.tariff = { s.tariff with
      staged := Staged.empty
      active := if s.trip = none then some ⟨i, imageCheck i⟩ else s.tariff.active
      pending := if s.trip = none then s.tariff.pending else some ⟨i, imageCheck i⟩ } ∧
    t.meter.buffer = .held 0x18 .ok []

/-- LOAD TARIFF PART and COMMIT TARIFF as they are answered (R27, R28): a part is stored whole or not at all; a commit needs all four parts and the
check value of what they hold, and empties the staged place; anything else leaves the store as it was. -/
def Obligations.PartsAreStoredAndCommitsChecked : Prop :=
  (∀ (part : Nat) (content : List Byte) (s u : State), Takes .meter (.loadTariffPart part content) s →
    u = arrived .meter (.loadTariffPart part content) s → tariffContentLength part content = true →
    (∀ st, stagePart u.tariff.staged part content = some st → exec (.loadTariffPart part content) s =
      .next (replied .meter (.loadTariffPart part content) .ok [] { u with tariff := { u.tariff with staged := st } })) ∧
    (stagePart u.tariff.staged part content = none →
      exec (.loadTariffPart part content) s = .next (replied .meter (.loadTariffPart part content) .badValue [] u)) ∧
    (3 < part → stagePart u.tariff.staged part content = none)) ∧
  (∀ (expected : Nat) (s u : State), Takes .meter (.commitTariff expected) s → u = arrived .meter (.commitTariff expected) s →
    (u.tariff.staged.image = none → exec (.commitTariff expected) s = .next (replied .meter (.commitTariff expected) .incomplete [] u)) ∧
    (∀ i, u.tariff.staged.image = some i →
      (expected ≠ (imageCheck i).toNat →
        exec (.commitTariff expected) s = .next (replied .meter (.commitTariff expected) .checkMismatch [] u)) ∧
      (expected = (imageCheck i).toNat → u.trip = none →
        exec (.commitTariff expected) s = .next (replied .meter (.commitTariff expected) .ok [] { u with
          tariff := { u.tariff with active := some ⟨i, imageCheck i⟩, staged := Staged.empty }
          meter := { u.meter with notices := u.meter.notices ||| 0x04 } })) ∧
      (expected = (imageCheck i).toNat → u.trip.isSome →
        exec (.commitTariff expected) s = .next (replied .meter (.commitTariff expected) .ok [] { u with
          tariff := { u.tariff with pending := some ⟨i, imageCheck i⟩, staged := Staged.empty } }))))

/-- SET CLOCK and the tick (R32, R33): the clock takes values in range while IDLE and its unset mark is cleared; each tick of a set clock is one second
of the week, with or without VMAIN, and an unset clock stands. -/
def Obligations.ClockIsSetAndAdvances : Prop :=
  (∀ (d h m x : Nat) (s u : State), Takes .meter (.setClock d h m x) s → u = arrived .meter (.setClock d h m x) s →
    (u.trip.isSome → exec (.setClock d h m x) s = .next (replied .meter (.setClock d h m x) .refusedState [] u)) ∧
    (u.trip = none → 1 ≤ d ∧ d ≤ 7 ∧ h ≤ 23 ∧ m ≤ 59 ∧ x ≤ 59 →
      exec (.setClock d h m x) s = .next (replied .meter (.setClock d h m x) .ok [] { u with
        tariff := { u.tariff with clock := ⟨true, d, h, m, x⟩, clockUnsetMark := false } })) ∧
    (u.trip = none → ¬(1 ≤ d ∧ d ≤ 7 ∧ h ≤ 23 ∧ m ≤ 59 ∧ x ≤ 59) →
      exec (.setClock d h m x) s = .next (replied .meter (.setClock d h m x) .badValue [] u))) ∧
  ∀ s : State,
    (s.tariff.clock.isSet = false → exec .clockTick s = .next s) ∧
    (s.tariff.clock.isSet = true → ∃ c, exec .clockTick s = .next { s with tariff := { s.tariff with clock := c } } ∧ c.isSet = true ∧
      (clockInRange s.tariff.clock.day s.tariff.clock.hour s.tariff.clock.minute s.tariff.clock.second = true →
        clockInRange c.day c.hour c.minute c.second = true ∧ c.secondOfWeek = (s.tariff.clock.secondOfWeek + 1) % 604800))

/-- CALIBRATE, SET IDENTITY and the items of SET INSTALLATION but the two sensitivities (R36, R172, R173): the first two are refused unless the trip is
IDLE and the duty state OFF DUTY, and a value out of range changes nothing; of the items, values with a range are brought to its nearest bound and
answered HELD when that moved one, and the air rate and the alarm-visible flag take only their two values. -/
def Obligations.InstallationSettingsAreWritten : Prop :=
  ((∀ (k : Nat) (s u : State), Takes .meter (.calibrate k) s → u = arrived .meter (.calibrate k) s →
    (u.trip.isSome ∨ u.duty.state ≠ .offDuty → exec (.calibrate k) s = .next (replied .meter (.calibrate k) .refusedState [] u)) ∧
    (u.trip = none → u.duty.state = .offDuty → 500 ≤ k ∧ k ≤ 60000 →
      exec (.calibrate k) s = .next (replied .meter (.calibrate k) .ok [] { u with
        settings := { u.settings with k := k }
        dist := { u.dist with remainder := 0 } })) ∧
    (u.trip = none → u.duty.state = .offDuty → ¬(500 ≤ k ∧ k ≤ 60000) →
      exec (.calibrate k) s = .next (replied .meter (.calibrate k) .badValue [] u))) ∧
  ∀ (cab fleet : Nat) (s u : State), Takes .meter (.setIdentity cab fleet) s → u = arrived .meter (.setIdentity cab fleet) s →
    (u.trip.isSome ∨ u.duty.state ≠ .offDuty →
      exec (.setIdentity cab fleet) s = .next (replied .meter (.setIdentity cab fleet) .refusedState [] u)) ∧
    (u.trip = none → u.duty.state = .offDuty → 1 ≤ cab ∧ cab ≤ 4095 ∧ 1 ≤ fleet ∧ fleet ≤ 255 →
      exec (.setIdentity cab fleet) s = .next (replied .meter (.setIdentity cab fleet) .ok [] { u with
        settings := { u.settings with cab := cab, fleet := fleet } })) ∧
    (u.trip = none → u.duty.state = .offDuty → ¬(1 ≤ cab ∧ cab ≤ 4095 ∧ 1 ≤ fleet ∧ fleet ≤ 255) →
      exec (.setIdentity cab fleet) s = .next (replied .meter (.setIdentity cab fleet) .badValue [] u))) ∧
  (∀ s : State,
    (∀ v u, Takes .meter (.setKeyLead v) s → u = arrived .meter (.setKeyLead v) s →
      exec (.setKeyLead v) s = .next (replied .meter (.setKeyLead v) (if 10 ≤ v ∧ v ≤ 100 then .ok else .held) [] { u with
        settings := { u.settings with keyLead := max 10 (min v 100) } })) ∧
    (∀ v u, Takes .meter (.setStatusInterval v) s → u = arrived .meter (.setStatusInterval v) s →
      exec (.setStatusInterval v) s = .next (replied .meter (.setStatusInterval v) (if 30 ≤ v ∧ v ≤ 600 then .ok else .held) [] { u with
        settings := { u.settings with statusInterval := max 30 (min v 600) } })) ∧
    (∀ a b c u, Takes .meter (.setUrgentSet a b c) s → u = arrived .meter (.setUrgentSet a b c) s →
      exec (.setUrgentSet a b c) s = .next (replied .meter (.setUrgentSet a b c)
        (if 1 ≤ a ∧ a ≤ 8 ∧ 1 ≤ b ∧ b ≤ 30 ∧ 5 ≤ c ∧ c ≤ 300 then .ok else .held) [] { u with
        settings := { u.settings with urgent := ⟨max 1 (min a 8), max 1 (min b 30), max 5 (min c 300)⟩ } })) ∧
    (∀ a b c u, Takes .meter (.setSustainedSet a b c) s → u = arrived .meter (.setSustainedSet a b c) s →
      exec (.setSustainedSet a b c) s = .next (replied .meter (.setSustainedSet a b c)
        (if 1 ≤ a ∧ a ≤ 8 ∧ 1 ≤ b ∧ b ≤ 30 ∧ 10 ≤ c ∧ c ≤ 600 then .ok else .held) [] { u with
        settings := { u.settings with sustained := ⟨max 1 (min a 8), max 1 (min b 30), max 10 (min c 600)⟩ } })) ∧
    (∀ v u, Takes .meter (.setAirRate v) s → u = arrived .meter (.setAirRate v) s →
      (v = 2400 ∨ v = 4800 →
        exec (.setAirRate v) s = .next (replied .meter (.setAirRate v) .ok [] { u with settings := { u.settings with airRate := v } })) ∧
      (v ≠ 2400 ∧ v ≠ 4800 → exec (.setAirRate v) s = .next (replied .meter (.setAirRate v) .badValue [] u))) ∧
    (∀ v u, Takes .meter (.setAlarmVisible v) s → u = arrived .meter (.setAlarmVisible v) s →
      (v ≤ 1 → exec (.setAlarmVisible v) s = .next (replied .meter (.setAlarmVisible v) .ok [] { u with
        settings := { u.settings with alarmVisible := decide (v = 1) } })) ∧
      (2 ≤ v → exec (.setAlarmVisible v) s = .next (replied .meter (.setAlarmVisible v) .badValue [] u))))

/-! ## Duty and jobs (04) -/

/-- A change of the Duty Unit is told everywhere (R62, R73, R78, R94): the notice DUTY is placed, the STATUS entry is held with the reason and the
interval timer restarts while signed on, and every OFFERED entry that no longer fits is declined with the reason that R91 gives. -/
def Obligations.DutyChangesAreReported : Prop :=
  ∀ (reason : StatusReason) (s v : State), v = dutyChanged reason s →
    changesOnly [.radio, .duty, .offers, .terminal] s v ∧
    v.duty = { s.duty with
      statusDue := if s.duty.signedOn then some (s.now + s.settings.statusInterval * 1000) else s.duty.statusDue } ∧
    v.offers = { s.offers with entries := s.offers.entries.map (fun o => match o.state with
      | .offered _ => (match filterReason s o.stackable with
        | some r => { o with state := .declined r }
        | none => o)
      | _ => o) } ∧
    v.terminal = { s.terminal with notices := v.terminal.notices } ∧ v.terminal.notices &&& 0x10 = 0x10 ∧
    (∀ k, s.terminal.notices.getLsbD k = true → v.terminal.notices.getLsbD k = true) ∧
    v.radio = { s.radio with queue := v.radio.queue, nextArrival := v.radio.nextArrival } ∧
    (∃ e ∈ v.radio.queue, e.content = .status reason ∨ (e.kind = .status ∧ e.leaving = true ∧ e.deferred = some (.status reason))) ∧
    (∀ o ∈ s.offers.entries, o.deadlineDue.isSome → (filterReason s o.stackable).isSome →
      v.radio.hasDecline o.number = true ∨ 8 ≤ v.radio.generalCount)

/-- SIGN ON and SIGN OFF (R65): the identity is required, a repeat changes nothing, and a job or an acceptance keeps the cab signed on; the duty state,
presence and the two timers follow the flag. -/
def Obligations.SigningOnAndOff : Prop :=
  (∀ s u : State, Takes .terminal .signOn s → u = arrived .terminal .signOn s →
    (u.settings.cab = 0 ∨ u.settings.fleet = 0 → exec .signOn s = .next (replied .terminal .signOn .noIdentity [] u)) ∧
    (u.settings.cab ≠ 0 → u.settings.fleet ≠ 0 → u.duty.signedOn = true →
      exec .signOn s = .next (replied .terminal .signOn .ok [] u)) ∧
    (u.settings.cab ≠ 0 → u.settings.fleet ≠ 0 → u.duty.signedOn = false →
      exec .signOn s = .next (replied .terminal .signOn .ok [] (dutyChanged .signOn { u with duty := { u.duty with
        state := if u.duty.state = .offDuty then .vacant else u.duty.state
        signedOn := true
        presence := .present
        presenceDue := some (u.now + 30000) } })))) ∧
  ∀ s u : State, Takes .terminal .signOff s → u = arrived .terminal .signOff s →
    (u.duty.signedOn = false → exec .signOff s = .next (replied .terminal .signOff .ok [] u)) ∧
    (u.duty.signedOn = true → (u.duty.current.isSome ∨ u.duty.next.isSome ∨ ∃ o ∈ u.offers.entries, o.accepted = true) →
      exec .signOff s = .next (replied .terminal .signOff .jobHeld [] u)) ∧
    (u.duty.signedOn = true → u.duty.current = none → u.duty.next = none → (∀ o ∈ u.offers.entries, o.accepted = false) →
      exec .signOff s = .next (replied .terminal .signOff .ok [] (dutyChanged .signOff { u with duty := { u.duty with
        state := if u.duty.state = .vacant then .offDuty else if u.duty.state = .clearing then .hired else u.duty.state
        signedOn := false
        presence := .notTracked
        presenceDue := none
        statusDue := none
        soonClear := none } })))

/-- SOON CLEAR and CANCEL CLEAR (R66, R67): the first is taken in HIRED and CLEARING while signed on, its minutes brought to 1 to 15 and HELD when that
moved them, and the same minutes again change nothing; the second is taken in CLEARING alone, makes the duty state HIRED and the minutes absent, and
leaves a job in the next-job slot there. -/
def Obligations.SoonClearAndCancelClear : Prop :=
  (∀ (n m : Nat) (r : Result) (s u : State), Takes .terminal (.soonClear n) s → u = arrived .terminal (.soonClear n) s →
    m = max 1 (min n 15) → r = (if 1 ≤ n ∧ n ≤ 15 then Result.ok else Result.held) →
    (u.duty.signedOn = true → u.duty.state = .hired →
      exec (.soonClear n) s = .next (replied .terminal (.soonClear n) r []
        (dutyChanged .duty { u with duty := { u.duty with state := .clearing, soonClear := some m } }))) ∧
    (u.duty.signedOn = true → u.duty.state = .clearing → u.duty.soonClear = some m →
      exec (.soonClear n) s = .next (replied .terminal (.soonClear n) r [] u)) ∧
    (u.duty.signedOn = true → u.duty.state = .clearing → u.duty.soonClear ≠ some m →
      exec (.soonClear n) s = .next (replied .terminal (.soonClear n) r []
        (refreshStatus .job (noticeTerminal noticeDuty { u with duty := { u.duty with soonClear := some m } })))) ∧
    (u.duty.signedOn = false ∨ (u.duty.state ≠ .hired ∧ u.duty.state ≠ .clearing) →
      exec (.soonClear n) s = .next (replied .terminal (.soonClear n) .refusedState [] u))) ∧
  (∀ s u : State, Takes .terminal .cancelClear s → u = arrived .terminal .cancelClear s →
    (u.duty.state = .clearing →
      ∃ v, exec .cancelClear s = .next (replied .terminal .cancelClear .ok [] v) ∧
        v = dutyChanged .duty { u with duty := { u.duty with state := .hired, soonClear := none } } ∧
        v.duty.state = .hired ∧ v.duty.soonClear = none ∧ v.duty.next = u.duty.next) ∧
    (u.duty.state ≠ .clearing → exec .cancelClear s = .next (replied .terminal .cancelClear .refusedState [] u)))

/-- NO SHOW, JOB CANCEL and WITHDRAW (R70, R71, R106): the first ends the current job in ASSIGNED, with a general position for its JOB EVENT; a cancelled
job leaves its slot with its blocks, the trip that serves it is marked, and a number that stands in the next-job slot and in the trip is cancelled in
both, with the notice JOB; a WITHDRAW first ends the open offer of that number; a number found in no place, or in a trip marked already, changes
nothing. -/
def Obligations.JobsEndWithoutATrip : Prop :=
  (∀ s u : State, Takes .terminal .noShow s → u = arrived .terminal .noShow s →
    (∀ j, u.duty.state = .assigned → u.duty.current = some j → u.radio.generalCount < 8 →
      exec .noShow s = .next (replied .terminal .noShow .ok [] (dutyChanged .duty { u with
        radio := { u.radio with
          queue := u.radio.queue ++ [newEntry (.jobEvent .noShow j.number u.tariff.clock) u.radio.nextArrival]
          nextArrival := u.radio.nextArrival + 1 }
        pool := releaseBlocks j.text.blocks u.pool
        duty := { u.duty with current := none, state := .vacant }
        terminal := { u.terminal with notices := u.terminal.notices ||| 0x02 } }))) ∧
    (u.duty.state = .assigned → u.duty.current.isSome → 8 ≤ u.radio.generalCount →
      exec .noShow s = .next (replied .terminal .noShow .queueFull [] u)) ∧
    (u.duty.state ≠ .assigned → exec .noShow s = .next (replied .terminal .noShow .refusedState [] u))) ∧
  ∀ (n cab : Nat) (s : State), n ≠ 0 →
    (∀ c ∈ [Instr.jobCancel (.cab cab) n, .withdraw (.cab cab) n], Delivered c s →
      (c = .withdraw (.cab cab) n → ∀ o ∈ findOffer n s, o.final = true) →
      (∀ j, s.duty.current = some j → j.number = n → s.duty.next = none → s.trip = none → s.duty.state = .assigned →
        exec c s = .next (sealDomain (dutyChanged .duty { s with
          pool := releaseBlocks j.text.blocks s.pool
          duty := { s.duty with current := none, state := .vacant }
          terminal := { s.terminal with notices := s.terminal.notices ||| 0x02 } }))) ∧
      (∀ j t, s.duty.next = some j → j.number = n → s.duty.current = none → s.trip = some t →
        exec c s = .next (sealDomain (refreshStatus .job { s with
          pool := releaseBlocks j.text.blocks s.pool
          duty := { s.duty with next := none }
          trip := some { t with job := t.job.map (fun x => if x.number = n then ⟨n, true⟩ else x) }
          terminal := { s.terminal with notices := s.terminal.notices ||| 0x02 } }))) ∧
      (∀ t, s.trip = some t → t.job = some ⟨n, false⟩ → slotHolds n s.duty.current = false → slotHolds n s.duty.next = false →
        exec c s = .next (sealDomain { s with
          trip := some { t with job := some ⟨n, true⟩ }
          terminal := { s.terminal with notices := s.terminal.notices ||| 0x02 } })) ∧
      (∀ t, s.trip = some t → t.job = some ⟨n, true⟩ → slotHolds n s.duty.current = false → slotHolds n s.duty.next = false →
        exec c s = .next (sealDomain s)) ∧
      (numberHeld n s = false → exec c s = .next (sealDomain s))) ∧
    (∀ o, Delivered (.withdraw (.cab cab) n) s → findOffer n s = some o → o.final = false →
      exec (.withdraw (.cab cab) n) s = .next (sealDomain (setOffer n .withdrawn (if o.accepted then removeAccept s else s))))

/-- POLL, the status interval and the presence timer (R74, R75, R77): each replaces the STATUS content with its reason; the presence timer makes the
terminal ABSENT, with all that follows a change of presence. Every replacement, whatever its reason, restarts the entry's delivery and, while signed on,
the interval timer: an absent STATUS is created at the end of the queue, READY; one held takes the new reason and is READY with retry count 0, backoff 0
and a fresh sequence to come; one SENDING goes out to its end and is then READY again, which O56 states of the mark set here. Given early, the row of a
timer brings the time base to its expiry (the model's choice, log 3). -/
def Obligations.StatusIsRenewedOnPollAndTime : Prop :=
  (∀ (a : Address) (s : State), Delivered (.poll a) s → exec (.poll a) s = .next (sealDomain (refreshStatus .poll s))) ∧
  (∀ s : State, s.power = .up →
    (∀ due, s.duty.statusDue = some due → exec .statusIntervalExpiry s =
      .next (sealDomain (refreshStatus .interval { s with now := max s.now due }))) ∧
    (s.duty.statusDue = none → exec .statusIntervalExpiry s = .next (sealDomain s)) ∧
    (∀ due, s.duty.presenceDue = some due → s.duty.presence = .present →
      exec .presenceTimerExpiry s = .next (sealDomain (dutyChanged .presence { s with
        now := max s.now due
        duty := { s.duty with presence := .absent, presenceDue := none } }))) ∧
    (s.duty.presenceDue = none → exec .presenceTimerExpiry s = .next (sealDomain s))) ∧
  ∀ (reason : StatusReason) (s : State) (d : DutyUnit), d = { s.duty with
      statusDue := if s.duty.signedOn then some (s.now + s.settings.statusInterval * 1000) else s.duty.statusDue } →
    ((∀ e ∈ s.radio.queue, e.kind ≠ .status) → refreshStatus reason s = { s with
      duty := d
      radio := { s.radio with
        queue := s.radio.queue ++ [{
          content := .status reason, seq := none, retry := 0, backoff := 0, state := .ready, arrival := s.radio.nextArrival, payload := []
          removed := false, refreshed := false, deferred := none, carriesFailed := false }]
        nextArrival := s.radio.nextArrival + 1 } }) ∧
    ((∃ e ∈ s.radio.queue, e.kind = .status) → refreshStatus reason s = { s with
      duty := d
      radio := { s.radio with
        queue := s.radio.queue.map (fun e =>
          if e.kind ≠ .status then e
          else if e.state ≠ .sending then { e with
            content := .status reason, seq := none, retry := 0, backoff := 0, state := .ready, carriesFailed := false }
          else if e.removed then { e with deferred := some (.status reason) }
          else { e with content := .status reason, refreshed := true }) } })

/-! ## Offers (06) -/

/-- An OFFER is entered whole (R82, R87, R89 to R93): addressed to this cab or to a zone it works, not a duplicate, fitting the cab's state and with a
place in the table, which is a free one or, of 8 entries, that of the oldest in a final state, it stands last, OFFERED, with its deadline of 5 to 60 s
running and its text in the pool as far as that goes. -/
def Obligations.OffersAreEntered : Prop :=
  ∀ (a : Address) (o : OfferFields) (s : State), Delivered (.offer a o) s → o.number ≠ 0 → 1 ≤ o.zone → o.zone ≤ 999 →
    ((o.dest = .directed ∧ toCab a = true) ∨ (o.dest = .zone ∧ o.zone ∈ s.offers.zones ∧ ∀ x ∈ s.offers.entries, x.accepted = false)) →
    (∀ x ∈ s.offers.entries, x.number ≠ o.number) → numberHeld o.number s = false → filterReason s o.stackable = none →
    ∀ room pool, (s.offers.entries.length < 8 ∧ room = s.offers.entries ∧ pool = s.pool) ∨
      (8 ≤ s.offers.entries.length ∧ (s.offers.entries.map Offer.number).Nodup ∧ ∃ before x after, s.offers.entries = before ++ x :: after ∧
        x.final = true ∧ (∀ y ∈ before, y.final = false) ∧ room = before ++ after ∧ pool = releaseBlocks x.text.blocks s.pool) →
    ∀ granted cut, cut = decide (freeCount pool < (o.text.length + 31) / 32) →
      granted = (if cut then grantBlocks (.offer o.number) (freeCount pool) (o.text.take (32 * freeCount pool)) pool
        else grantBlocks (.offer o.number) ((o.text.length + 31) / 32) o.text pool) →
      exec (.offer a o) s = .next (sealDomain { s with
        pool := granted.1
        offers := { s.offers with
          entries := room ++ [{
            number := o.number, dest := o.dest, zone := o.zone, stackable := o.stackable, account := o.account
            estimate := if o.estimate ≤ 99999 then some o.estimate else none
            text := ⟨granted.2, if cut then 32 * freeCount pool else o.text.length⟩, truncated := cut, deadline := max 5 (min o.deadline 60)
            arrival := s.offers.nextArrival, state := .offered (s.now + max 5 (min o.deadline 60) * 1000) }]
          nextArrival := s.offers.nextArrival + 1 }
        terminal := { s.terminal with notices := s.terminal.notices ||| 0x01 } })

/-- An OFFER that is not entered (R89 to R92): ignored when it is not for this cab, or a repeat of an entry held other than a declined one, or of a job;
a repeat of a declined entry, DIRECTED or for a zone of the list, is declined again with that entry's reason; declined when it is DIRECTED and the cab's
state does not fit it or eight open entries leave no place; a ZONE offer is never declined so, and one that fits is ignored while an acceptance is
pending. -/
def Obligations.OffersAreTurnedAway : Prop :=
  ∀ (a : Address) (o : OfferFields) (s : State), Delivered (.offer a o) s → o.number ≠ 0 → 1 ≤ o.zone → o.zone ≤ 999 →
    (o.dest = .directed → toCab a = false → exec (.offer a o) s = .next (sealDomain s)) ∧
    (o.dest = .zone → o.zone ∉ s.offers.zones → exec (.offer a o) s = .next (sealDomain s)) ∧
    ((o.dest = .directed ∧ toCab a = true) ∨ (o.dest = .zone ∧ o.zone ∈ s.offers.zones) →
      ∀ x r, findOffer o.number s = some x → x.state = .declined r →
      exec (.offer a o) s = .next (sealDomain { s with radio := s.radio.queueDecline o.number r })) ∧
    (∀ x, findOffer o.number s = some x → x.reason = none → exec (.offer a o) s = .next (sealDomain s)) ∧
    (findOffer o.number s = none → numberHeld o.number s = true → exec (.offer a o) s = .next (sealDomain s)) ∧
    (findOffer o.number s = none → numberHeld o.number s = false → ∀ r, filterReason s o.stackable = some r →
      exec (.offer a o) s =
        .next (sealDomain (if o.dest = .directed ∧ toCab a = true then { s with radio := s.radio.queueDecline o.number r } else s))) ∧
    (findOffer o.number s = none → numberHeld o.number s = false → filterReason s o.stackable = none → o.dest = .zone →
      (∃ x ∈ s.offers.entries, x.accepted = true) → exec (.offer a o) s = .next (sealDomain s)) ∧
    (findOffer o.number s = none → numberHeld o.number s = false → filterReason s o.stackable = none →
      8 ≤ s.offers.entries.length → (∀ x ∈ s.offers.entries, x.final = false) →
      exec (.offer a o) s =
        .next (sealDomain (if o.dest = .directed ∧ toCab a = true then { s with radio := s.radio.queueDecline o.number .tableFull } else s)))

/-- ACCEPT (R97, R98): the offer is ACCEPTING with its award timer of 30 s and the ACCEPT entry is made; in offer mode SINGLE every other OFFERED entry
is declined OTHER ACCEPTED, with its DECLINE as far as the general positions go; a second acceptance, a late or an unfit one is refused. -/
def Obligations.AcceptTakesOneOffer : Prop :=
  ∀ (n : Nat) (s u : State), Takes .terminal (.accept n) s → u = arrived .terminal (.accept n) s →
    (findOffer n u = none → exec (.accept n) s = .next (replied .terminal (.accept n) .notFound [] u)) ∧
    ∀ o, findOffer n u = some o →
      (o.state = .expired → exec (.accept n) s = .next (replied .terminal (.accept n) .tooLate [] u)) ∧
      (o.state ≠ .expired → o.deadlineDue = none → exec (.accept n) s = .next (replied .terminal (.accept n) .refusedState [] u)) ∧
      (o.deadlineDue.isSome → (∃ x ∈ u.offers.entries, x.accepted = true) →
        exec (.accept n) s = .next (replied .terminal (.accept n) .onePending [] u)) ∧
      (o.deadlineDue.isSome → (∀ x ∈ u.offers.entries, x.accepted = false) → offerFits u.duty o.stackable = false →
        exec (.accept n) s = .next (replied .terminal (.accept n) .refusedState [] u)) ∧
      (o.deadlineDue.isSome → (∀ x ∈ u.offers.entries, x.accepted = false) → offerFits u.duty o.stackable = true →
        ∃ v, exec (.accept n) s = .next (replied .terminal (.accept n) .ok [] v) ∧ changesOnly [.radio, .offers, .terminal] u v ∧
          v.offers = { u.offers with entries := u.offers.entries.map (fun x =>
            if x.number = n then { x with state := .accepting (u.now + 30000) }
            else match x.state with
              | .offered _ => if u.offers.mode = .single then { x with state := .declined .otherAccepted } else x
              | _ => x) } ∧
          v.terminal = { u.terminal with notices := u.terminal.notices ||| 0x01 } ∧
          v.radio.holds .accept = true ∧ (u.radio.holds .accept = false → ∃ e ∈ v.radio.queue, e.content = .accept n ∧ e.state = .ready) ∧
          (u.offers.mode = .single → ∀ x ∈ u.offers.entries, x.number ≠ n → x.deadlineDue.isSome →
            v.radio.hasDecline x.number = true ∨ 8 ≤ v.radio.generalCount))

/-- DECLINE, DISMISS, SET OFFER MODE and SET ZONES (R98, R99, R100, R107), and how a DECLINE and a JOB EVENT RELEASE are queued, whoever queues them
(R99, R104): none is made while one for the number is held, which stays as it is, and none while the eight general positions are taken; otherwise it
is created at the end of the queue, READY. -/
def Obligations.OffersAreAnsweredAndDismissed : Prop :=
  (∀ (n : Nat) (s u : State), Takes .terminal (.decline n) s → u = arrived .terminal (.decline n) s →
    (findOffer n u = none → exec (.decline n) s = .next (replied .terminal (.decline n) .notFound [] u)) ∧
    ∀ o, findOffer n u = some o →
      (o.state = .expired → exec (.decline n) s = .next (replied .terminal (.decline n) .tooLate [] u)) ∧
      (o.state ≠ .expired → o.deadlineDue = none → exec (.decline n) s = .next (replied .terminal (.decline n) .refusedState [] u)) ∧
      (o.deadlineDue.isSome → exec (.decline n) s = .next (replied .terminal (.decline n) .ok [] { u with
        offers := { u.offers with entries := u.offers.entries.map (fun x => if x.number = n then { x with state := .declined .driver } else x) }
        radio := u.radio.queueDecline n .driver
        terminal := { u.terminal with notices := u.terminal.notices ||| 0x01 } }))) ∧
  (∀ (n : Nat) (s u : State), Takes .terminal (.dismiss n) s → u = arrived .terminal (.dismiss n) s →
    (findOffer n u = none → exec (.dismiss n) s = .next (replied .terminal (.dismiss n) .notFound [] u)) ∧
    ∀ o, findOffer n u = some o →
      (o.final = false → exec (.dismiss n) s = .next (replied .terminal (.dismiss n) .refusedState [] u)) ∧
      (o.final = true → exec (.dismiss n) s = .next (replied .terminal (.dismiss n) .ok [] { u with
        pool := releaseBlocks o.text.blocks u.pool
        offers := { u.offers with entries := u.offers.entries.filter (fun x => x.number ≠ n) } }))) ∧
  (∀ (v : Nat) (s u : State), Takes .terminal (.setOfferMode v) s → u = arrived .terminal (.setOfferMode v) s →
    (v ≤ 1 → exec (.setOfferMode v) s = .next (replied .terminal (.setOfferMode v) .ok [] { u with
      offers := { u.offers with mode := if v = 0 then .single else .multi } })) ∧
    (2 ≤ v → exec (.setOfferMode v) s = .next (replied .terminal (.setOfferMode v) .badValue [] u))) ∧
  (∀ (zs : List Nat) (s u : State), Takes .terminal (.setZones zs) s → u = arrived .terminal (.setZones zs) s →
    ((6 < zs.length ∨ ∃ z ∈ zs, z = 0 ∨ 999 < z) → exec (.setZones zs) s = .next (replied .terminal (.setZones zs) .badValue [] u)) ∧
    (zs.length ≤ 6 → (∀ z ∈ zs, 1 ≤ z ∧ z ≤ 999) →
      ∃ held, exec (.setZones zs) s = .next (replied .terminal (.setZones zs) .ok [] { u with offers := { u.offers with zones := held } }) ∧
        held.Nodup ∧ ∀ z, z ∈ held ↔ z ∈ zs)) ∧
  ∀ (n general : Nat) (reason : DeclineReason) (t : ClockReading) (r : Radio) (made : Content → Radio),
    general = r.queue.countP (fun e => decide (e.kind = .jobEvent ∨ e.kind = .receipt ∨ e.kind = .decline ∨ e.kind = .driverMessage)) →
    made = (fun c => { r with
      queue := r.queue ++ [{
        content := c, seq := none, retry := 0, backoff := 0, state := .ready, arrival := r.nextArrival, payload := [], removed := false
        refreshed := false, deferred := none, carriesFailed := false }]
      nextArrival := r.nextArrival + 1 }) →
    ((∃ e ∈ r.queue, ∃ x, e.content = .decline n x) → r.queueDecline n reason = r) ∧
    ((∀ e ∈ r.queue, ∀ x, e.content ≠ .decline n x) →
      r.queueDecline n reason = if general < 8 then made (.decline n reason) else r) ∧
    ((∃ e ∈ r.queue, ∃ x, e.content = .jobEvent .release n x) → r.queueRelease n t = r) ∧
    ((∀ e ∈ r.queue, ∀ x, e.content ≠ .jobEvent .release n x) →
      r.queueRelease n t = if general < 8 then made (.jobEvent .release n t) else r)

/-- The ends of an open offer (R96, R101, R102, R105): its deadline, its award timer, and a LOST; each but the first also takes the ACCEPT entry of the
accepted offer away, and an entry in a final state is left alone. Given early, the row of a timer brings the time base to its expiry (the model's choice,
log 3). -/
def Obligations.OpenOffersComeToAnEnd : Prop :=
  (∀ (n : Nat) (s : State), s.power = .up →
    (∀ o due, findOffer n s = some o → o.state = .offered due →
      exec (.deadlineExpiry n) s = .next (sealDomain (setOffer n .expired { s with now := max s.now due }))) ∧
    ((∀ o ∈ findOffer n s, o.deadlineDue = none) → exec (.deadlineExpiry n) s = .next (sealDomain s)) ∧
    (∀ o due, findOffer n s = some o → o.awardDue = some due →
      exec (.awardTimerExpiry n) s = .next (sealDomain (setOffer n .lost (removeAccept { s with now := max s.now due })))) ∧
    ((∀ o ∈ findOffer n s, o.awardDue = none) → exec (.awardTimerExpiry n) s = .next (sealDomain s))) ∧
  ∀ (n cab : Nat) (s : State), Delivered (.lost (.cab cab) n) s → n ≠ 0 →
    (∀ o, findOffer n s = some o → o.deadlineDue.isSome → exec (.lost (.cab cab) n) s = .next (sealDomain (setOffer n .lost s))) ∧
    (∀ o, findOffer n s = some o → o.awardDue.isSome →
      exec (.lost (.cab cab) n) s = .next (sealDomain (setOffer n .lost (removeAccept s)))) ∧
    ((∀ o ∈ findOffer n s, o.final = true) → exec (.lost (.cab cab) n) s = .next (sealDomain s))

/-- AWARD (R69, R84, R103, R104): an accepted offer becomes the current job of a VACANT cab or the next job of one that is HIRED or CLEARING, its text
passing with it; in any other case (OFF DUTY, ASSIGNED, HIRED but not signed on, HIRED or CLEARING with a next job already held) it is ABANDONED, its
ACCEPT removed, the notice OFFER placed and a RELEASE queued; a number not accepted is released, and one already awarded is ignored. -/
def Obligations.AwardsAreThePlacingOfJobs : Prop :=
  ∀ (n cab : Nat) (s : State), Delivered (.award (.cab cab) n) s → n ≠ 0 →
    (numberHeld n s = true → exec (.award (.cab cab) n) s = .next (sealDomain s)) ∧
    (numberHeld n s = false → (∀ o ∈ findOffer n s, o.accepted = false) →
      exec (.award (.cab cab) n) s = .next (sealDomain { s with radio := s.radio.queueRelease n s.tariff.clock })) ∧
    (∀ o j, numberHeld n s = false → findOffer n s = some o → o.accepted = true →
      j = ({ number := o.number, zone := o.zone, account := o.account, estimate := o.estimate, text := o.text, truncated := o.truncated } : Job) →
      (s.duty.state = .vacant →
        exec (.award (.cab cab) n) s = .next (sealDomain (dutyChanged .duty { s with
          pool := retagBlocks .currentJob o.text.blocks s.pool
          duty := { s.duty with state := .assigned, current := some j }
          offers := { s.offers with entries := s.offers.entries.filter (fun x => x.number ≠ n) }
          radio := s.radio.removeOwned .accept
          terminal := { s.terminal with notices := s.terminal.notices ||| 0x03 } }))) ∧
      ((s.duty.state = .clearing ∨ (s.duty.state = .hired ∧ s.duty.signedOn = true)) → s.duty.next = none →
        exec (.award (.cab cab) n) s = .next (sealDomain (recheck (refreshStatus .job { s with
          pool := retagBlocks .nextJob o.text.blocks s.pool
          duty := { s.duty with next := some j }
          offers := { s.offers with entries := s.offers.entries.filter (fun x => x.number ≠ n) }
          radio := s.radio.removeOwned .accept
          terminal := { s.terminal with notices := s.terminal.notices ||| 0x03 } })))) ∧
      (s.duty.state = .offDuty ∨ s.duty.state = .assigned ∨ (s.duty.state = .hired ∧ s.duty.signedOn = false) ∨
          ((s.duty.state = .hired ∨ s.duty.state = .clearing) ∧ s.duty.next.isSome) →
        exec (.award (.cab cab) n) s = .next (sealDomain { s with
          offers := { s.offers with
            entries := s.offers.entries.map (fun x => if x.number = n then { x with state := .abandoned } else x) }
          radio := (s.radio.removeOwned .accept).queueRelease n s.tariff.clock
          terminal := { s.terminal with notices := s.terminal.notices ||| 0x01 } })))

/-! ## Messages (07) -/

/-- A MESSAGE, MARK READ and DELETE (R111 to R116): a new message for this cab that finds room is stored last and receipted STORED; a repeat is only
receipted; without room it is receipted FULL; a FLEET BROADCAST is never receipted. Reading a PRIORITY message is receipted READ; a deleted
number is remembered. A RECEIPT is queued (R114) when none for the number is held and a general position is free; one held with the same status stays as it
is, and one with another status takes the new one with its delivery restarted, at once or, while SENDING, when the transmission has ended. -/
def Obligations.MessagesAreStoredReadAndDeleted : Prop :=
  (∀ (a : Address) (n cls : Nat) (c : MessageClass) (text : List Byte) (s : State) (answered : ReceiptStatus → State → State),
    Delivered (.message a n cls text) s → n ≠ 0 → classOf cls = some c → 1 ≤ text.length → text.length ≤ 120 →
    answered = (fun st x => if c = .broadcast then x else { x with radio := x.radio.queueReceipt n st }) →
    (toCab a = false → c ≠ .broadcast → exec (.message a n cls text) s = .next (sealDomain s)) ∧
    (∀ z, a = .zone z → z ∉ s.offers.zones → exec (.message a n cls text) s = .next (sealDomain s)) ∧
    (toCab a = true ∨ (c = .broadcast ∧ (a = .all ∨ ∃ z ∈ s.offers.zones, a = .zone z)) →
      (∀ m, findInbound n s = some m →
        exec (.message a n cls text) s = .next (sealDomain (answered (if m.cls = .priority ∧ m.read = true then .read else .stored) s))) ∧
      (findInbound n s = none → n ∈ s.messages.removed → exec (.message a n cls text) s = .next (sealDomain (answered .stored s))) ∧
      (findInbound n s = none → n ∉ s.messages.removed →
        (16 ≤ s.messages.inbound.length ∨ freeCount s.pool < (text.length + 31) / 32 + 8) →
        exec (.message a n cls text) s = .next (sealDomain (answered .full s))) ∧
      (findInbound n s = none → n ∉ s.messages.removed → s.messages.inbound.length < 16 →
        (text.length + 31) / 32 + 8 ≤ freeCount s.pool → ∀ g, g = grantBlocks (.inbound n) ((text.length + 31) / 32) text s.pool →
        exec (.message a n cls text) s = .next (sealDomain (answered .stored { s with
          pool := g.1
          messages := { s.messages with inbound := s.messages.inbound ++ [⟨n, c, s.tariff.clock, ⟨g.2, text.length⟩, false, false⟩] }
          terminal := { s.terminal with notices := s.terminal.notices ||| 0x04 } }))))) ∧
  (∀ (n : Nat) (s u : State), Takes .terminal (.markRead n) s → u = arrived .terminal (.markRead n) s →
    (findInbound n u = none → exec (.markRead n) s = .next (replied .terminal (.markRead n) .notFound [] u)) ∧
    (∀ m, findInbound n u = some m → m.read = true → exec (.markRead n) s = .next (replied .terminal (.markRead n) .ok [] u)) ∧
    (∀ m, findInbound n u = some m → m.read = false →
      exec (.markRead n) s = .next (replied .terminal (.markRead n) .ok [] { u with
        messages := { u.messages with
          inbound := u.messages.inbound.map (fun x => if x.number = n then { x with read := true } else x) }
        radio := if m.cls = .priority then u.radio.queueReceipt n .read else u.radio }))) ∧
  (∀ (n : Nat) (s u : State), Takes .terminal (.delete n) s → u = arrived .terminal (.delete n) s →
    (findInbound n u = none → exec (.delete n) s = .next (replied .terminal (.delete n) .notFound [] u)) ∧
    (∀ m, findInbound n u = some m → m.cls = .replyRequired → m.replied = false →
      exec (.delete n) s = .next (replied .terminal (.delete n) .refusedState [] u)) ∧
    (∀ m, findInbound n u = some m → (m.cls ≠ .replyRequired ∨ m.replied = true) → u.messages.removed.length ≤ 8 →
      exec (.delete n) s = .next (replied .terminal (.delete n) .ok [] { u with
        pool := releaseBlocks m.text.blocks u.pool
        messages := { u.messages with
          inbound := u.messages.inbound.filter (fun x => x.number ≠ n)
          removed := (if u.messages.removed.length = 8 then u.messages.removed.drop 1 else u.messages.removed) ++ [n] } }))) ∧
  ∀ (n general : Nat) (st : ReceiptStatus) (r : Radio),
    general = r.queue.countP (fun e => decide (e.kind = .jobEvent ∨ e.kind = .receipt ∨ e.kind = .decline ∨ e.kind = .driverMessage)) →
    ((∀ e ∈ r.queue, ∀ x, e.content ≠ .receipt n x) →
      r.queueReceipt n st = if general < 8 then { r with
          queue := r.queue ++ [{
            content := .receipt n st, seq := none, retry := 0, backoff := 0, state := .ready, arrival := r.nextArrival, payload := []
            removed := false, refreshed := false, deferred := none, carriesFailed := false }]
          nextArrival := r.nextArrival + 1 } else r) ∧
    ((∃ e ∈ r.queue, ∃ x, e.content = .receipt n x) → (∀ e ∈ r.queue, e.kind = .receipt → e.removed = false) →
      r.queueReceipt n st = { r with queue := r.queue.map (fun e => match e.content with
        | .receipt m x =>
          if m ≠ n ∨ x = st then e
          else if e.state = .sending then { e with content := .receipt n st, refreshed := true }
          else { e with content := .receipt n st, seq := none, retry := 0, backoff := 0, state := .ready, carriesFailed := false }
        | _ => e) })

/-- SEND MESSAGE, REPLY and DISMISS OUTBOUND (R117 to R120, R122): a message out of range is a BAD VALUE; with six unresolved entries, or no blocks for
its text, it is refused FULL; otherwise it stands last, WAITING, under the first local number that no other entry holds, counting up from the next one
with 255 followed by 1, which the reply names; of six entries the oldest resolved one makes way. A REPLY is decided so once its message is found, and
not a FLEET BROADCAST, and sets the replied flag. The oldest WAITING entry is queued as soon as a general position is free. -/
def Obligations.OutboundMessagesGetALocalNumber : Prop :=
  (∀ (canned : Nat) (text : List Byte) (linked : Option Nat) (c : Instr) (mark : State → State) (s u : State),
    Takes .terminal c s → u = arrived .terminal c s → MessageLaw u →
    (c = .sendMessage canned text ∧ linked = none ∧ mark = (fun y => y)) ∨
      (∃ m x, c = .reply m canned text ∧ findInbound m u = some x ∧ x.cls ≠ .broadcast ∧ linked = some m ∧
        mark = (fun y => { y with messages := { y.messages with
          inbound := y.messages.inbound.map (fun i => if i.number = m then { i with replied := true } else i) } })) →
    (¬((canned = 0 ∧ 1 ≤ text.length ∧ text.length ≤ 60) ∨ (1 ≤ canned ∧ canned ≤ 31 ∧ text = [])) →
      exec c s = .next (replied .terminal c .badValue [] u)) ∧
    ((canned = 0 ∧ 1 ≤ text.length ∧ text.length ≤ 60) ∨ (1 ≤ canned ∧ canned ≤ 31 ∧ text = []) →
      (u.messages.outbound.length = 6 → (∀ o ∈ u.messages.outbound, o.resolved = false) →
        exec c s = .next (replied .terminal c .full [] u)) ∧
      (canned = 0 → freeCount u.pool < (text.length + 31) / 32 + 8 → exec c s = .next (replied .terminal c .full [] u)) ∧
      (∀ room, (u.messages.outbound.length < 6 ∧ room = u.messages.outbound) ∨
          (u.messages.outbound.length = 6 ∧ ∃ before o after, u.messages.outbound = before ++ o :: after ∧ o.resolved = true ∧
            (∀ x ∈ before, x.resolved = false) ∧ room = before ++ after) →
        (canned = 0 → (text.length + 31) / 32 + 8 ≤ freeCount u.pool) →
        ∃ n k pool content, exec c s = .next (replied .terminal c .ok (natBytes 1 n)
            (mark (queueWaiting { u with
              pool := pool
              messages := { u.messages with
                outbound := room ++ [⟨n, linked, content, .waiting⟩]
                nextLocal := if n = 255 then 1 else n + 1 } }))) ∧
          n = (u.messages.nextLocal - 1 + k) % 255 + 1 ∧ (∀ o ∈ room, o.localNumber ≠ n) ∧
          (∀ j < k, ∃ o ∈ room, o.localNumber = (u.messages.nextLocal - 1 + j) % 255 + 1) ∧
          (canned ≠ 0 → content = .canned canned ∧ pool = u.pool) ∧
          (canned = 0 → ∀ g, g = grantBlocks (.outbound n) ((text.length + 31) / 32) text u.pool →
            content = .text ⟨g.2, text.length⟩ ∧ pool = g.1)))) ∧
  (∀ (m canned : Nat) (text : List Byte) (s u : State), Takes .terminal (.reply m canned text) s →
    u = arrived .terminal (.reply m canned text) s →
    (findInbound m u = none → exec (.reply m canned text) s = .next (replied .terminal (.reply m canned text) .notFound [] u)) ∧
    (∀ x, findInbound m u = some x → x.cls = .broadcast →
      exec (.reply m canned text) s = .next (replied .terminal (.reply m canned text) .refusedState [] u))) ∧
  (∀ (u : State) (general : Nat),
    general = u.radio.queue.countP (fun e => decide (e.kind = .jobEvent ∨ e.kind = .receipt ∨ e.kind = .decline ∨ e.kind = .driverMessage)) →
    (8 ≤ general ∨ (∀ o ∈ u.messages.outbound, o.state ≠ .waiting) → queueWaiting u = u) ∧
    (general < 8 → ∀ before o after, u.messages.outbound = before ++ o :: after → o.state = .waiting → (∀ x ∈ before, x.state ≠ .waiting) →
      queueWaiting u = { u with
        radio := { u.radio with
          queue := u.radio.queue ++ [{
            content := .driverMessage o.localNumber, seq := none, retry := 0, backoff := 0, state := .ready
            arrival := u.radio.nextArrival, payload := [], removed := false, refreshed := false, deferred := none, carriesFailed := false }]
          nextArrival := u.radio.nextArrival + 1 }
        messages := { u.messages with
          outbound := u.messages.outbound.map (fun x => if x.localNumber = o.localNumber then { x with state := .queued } else x) } })) ∧
  ∀ (n : Nat) (s u : State), Takes .terminal (.dismissOutbound n) s → u = arrived .terminal (.dismissOutbound n) s →
    (findOutbound n u = none → exec (.dismissOutbound n) s = .next (replied .terminal (.dismissOutbound n) .notFound [] u)) ∧
    (∀ o, findOutbound n u = some o → o.resolved = false →
      exec (.dismissOutbound n) s = .next (replied .terminal (.dismissOutbound n) .refusedState [] u)) ∧
    (∀ o, findOutbound n u = some o → o.resolved = true →
      exec (.dismissOutbound n) s = .next (replied .terminal (.dismissOutbound n) .ok [] { u with
        messages := { u.messages with outbound := u.messages.outbound.filter (fun x => x.localNumber ≠ n) } }))

/-- A text is read back as it was stored (R79, R80): blocks granted for a text hold it, 32 characters each, under the holder's tag and in ascending
order; no block of another holder is touched. -/
def Obligations.StoredTextsReadBack : Prop :=
  ∀ (h : Holder) (text : List Byte) (pool after : List Block) (blocks : List Nat), (text.length + 31) / 32 ≤ freeCount pool →
    (after, blocks) = grantBlocks h ((text.length + 31) / 32) text pool →
    readText after ⟨blocks, text.length⟩ = text ∧ blocks.length = (text.length + 31) / 32 ∧ blocks.Pairwise (· < ·) ∧
    after.length = pool.length ∧ freeCount after + (text.length + 31) / 32 = freeCount pool ∧
    (∀ n ∈ blocks, blockOwner pool n = none ∧ blockOwner after n = some h) ∧
    ∀ n, n ∉ blocks → after[n]? = pool[n]?

/-! ## Emergency (08) -/

/-- A press (R125, R127 to R130) from either line begins the emergency from NORMAL, with its record, the cancel window of 20 s, the levels at 0 and the
saved copy and the trip's mark. Every OFFERED entry is DECLINED, with UNAVAILABLE or, while nobody is signed on, with the reason that comes before it
(R91), and a DECLINE is queued for it, oldest first, as far as the general positions go and where none is held for its number; every other offer stands
as it was, an accepted one among them. A slot transmission in progress is cut off: its entry is READY again under its sequence and retry count, or with
retry count 0 and no sequence if its owner refreshed it, or gone if its owner removed it, with the creation that waited, and reception is blanked for 20
ms. Every other entry of the Uplink Queue keeps its place, state, sequence, retry count and backoff, and only those DECLINEs are added. Then an URGENT
cycle begins with its first ALERT, and EMERGENCY is told to the meter, and to the terminal while alarm visible is set. In an emergency a press counts,
returns to ALERTING and tells of it so: a mark runs on and is followed by the URGENT space, as the settings stand at the press when the set changes (log
17), and a space ends at once with an URGENT cycle that no hold silences. Levels that give no press change only what the lines hold. How an ALERT is
made is in BeaconRunsItsCycles. -/
def Obligations.PressesRaiseTheEmergency : Prop :=
  ∀ (l0 l1 : Option Level) (s : State) (press : Bool) (x : BeaconSetting) (first : BeaconCycle) (reason : DeclineReason), s.power = .up →
    reason = (if s.duty.signedOn then .unavailable else .notSignedOn) →
    press = (linePresses s.settings.sens0 s.alarm.line0 l0 || linePresses s.settings.sens1 s.alarm.line1 l1) →
    x = s.settings.urgent →
    first = {
      count := x.count, spacing := x.spacing, space := x.space, held := false, nextBurst := if 1 < x.count then 2 else 1
      due := s.now + (if 1 < x.count then x.spacing else x.space) * 1000 } →
    (press = false → exec (.alarmLineLevel l0 l1) s = .next (sealDomain { s with alarm := { s.alarm with
      line0 := { s.alarm.line0 with level := l0.or s.alarm.line0.level }
      line1 := { s.alarm.line1 with level := l1.or s.alarm.line1.level } } })) ∧
    (press = true → s.alarm.record.state = .normal → ∃ v w kept added, exec (.alarmLineLevel l0 l1) s = .next v ∧
      changesOnly [.alarm, .radio, .trip, .offers, .terminal, .meter] s v ∧
      v.alarm = {
        record := {
          state := .alerting, presses := 1, startTime := some s.tariff.clock, cancelOpen := true, beaconSet := .urgent
          position := some (1, if 1 < x.count then .mark else .space), hold := 0
          pinIntent := s.alarm.record.pinIntent || s.trip.isSome }
        cancelDue := some (s.now + 20000), cycle := some first, saved := some s.radio.levels, latch := false
        line0 := { s.alarm.line0 with level := l0.or s.alarm.line0.level }
        line1 := { s.alarm.line1 with level := l1.or s.alarm.line1.level } } ∧
      v.radio.levels = Levels.zero ∧ slotTransmission v = false ∧ v.trip = s.trip.map (fun t => { t with emergency := true }) ∧
      v.offers = { s.offers with entries := s.offers.entries.map (fun o => match o.state with
        | .offered _ => { o with state := .declined reason }
        | _ => o) } ∧
      (∀ o ∈ s.offers.entries, o.deadlineDue.isSome → v.radio.hasDecline o.number = true ∨ 8 ≤ v.radio.generalCount) ∧
      (s.radio.link ≠ .lost → v.radio.holds .alert = true) ∧
      v.meter = { s.meter with notices := s.meter.notices ||| 0x08 } ∧
      v.terminal = { s.terminal with notices := s.terminal.notices ||| (if s.settings.alarmVisible then 0x80 else 0) |||
        (if s.offers.entries.any (fun o => o.deadlineDue.isSome) then 0x01 else 0) } ∧
      changesOnly [.alarm, .radio, .trip, .offers, .terminal] s w ∧ w.trip = v.trip ∧
      w.alarm.record = { v.alarm.record with position := some (1, .mark) } ∧ v.radio = (makeAlert false 1 w).radio ∧
      w.radio = { s.radio with
        levels := Levels.zero, queue := w.radio.queue, nextArrival := w.radio.nextArrival, tx := w.radio.tx
        blankedUntil := w.radio.blankedUntil, blindWaiting := w.radio.blindWaiting } ∧
      (slotTransmission s = false →
        w.radio.tx = s.radio.tx ∧ w.radio.blankedUntil = s.radio.blankedUntil ∧ w.radio.blindWaiting = s.radio.blindWaiting) ∧
      (slotTransmission s = true → w.radio.blankedUntil = some (s.now + 20) ∧ (s.radio.blindWaiting = [] → w.radio.tx = none)) ∧
      w.radio.queue = kept ++ added ∧
      ((∀ n e, s.radio.tx.map Transmission.kind = some (.entry n) → findEntry n s ≠ some e) → kept = s.radio.queue) ∧
      (∀ n e, s.radio.tx.map Transmission.kind = some (.entry n) → findEntry n s = some e →
        (e.removed = false → kept = s.radio.queue.map (fun y =>
          if y.arrival ≠ n then y
          else if y.refreshed then { y with
            state := .ready, retry := 0, backoff := 0, seq := none, refreshed := false, carriesFailed := false }
          else { y with state := .ready, backoff := 0 })) ∧
        (e.removed = true → kept = s.radio.queue.filter (fun y => y.arrival ≠ n) ++ (match e.deferred with
            | some c => [{
                content := c, seq := none, retry := 0, backoff := 0, state := .ready, arrival := s.radio.nextArrival, payload := []
                removed := false, refreshed := false, deferred := none, carriesFailed := false }]
            | none => []))) ∧
      List.Sublist (added.map Entry.content)
        ((s.offers.entries.filter (fun o => o.deadlineDue.isSome)).map (fun o => .decline o.number reason)) ∧
      (∀ y ∈ added, y.state = .ready ∧ y.retry = 0 ∧ y.backoff = 0 ∧ y.seq = none ∧ s.radio.nextArrival ≤ y.arrival) ∧
      ∀ m r, (∃ y ∈ kept, y.content = .decline m r) → ∀ y ∈ added, y.content ≠ .decline m reason) ∧
    (press = true → s.alarm.record.state ≠ .normal → ∃ v, exec (.alarmLineLevel l0 l1) s = .next v ∧
      changesOnly [.alarm, .radio, .terminal, .meter] s v ∧
      v.alarm = { s.alarm with
        record := { s.alarm.record with
          state := .alerting
          presses := min (s.alarm.record.presses + 1) 15
          beaconSet := .urgent
          hold := 0
          position := if inMark s then s.alarm.record.position else some (1, if 1 < x.count then .mark else .space) }
        cycle := if inMark s then
            (if s.alarm.record.beaconSet = .urgent then s.alarm.cycle else s.alarm.cycle.map (fun c => { c with space := x.space }))
          else some first
        latch := false
        line0 := { s.alarm.line0 with level := l0.or s.alarm.line0.level }
        line1 := { s.alarm.line1 with level := l1.or s.alarm.line1.level } } ∧
      v.radio.levels = s.radio.levels ∧
      v.meter = { s.meter with notices := s.meter.notices ||| 0x08 } ∧
      v.terminal = (if s.settings.alarmVisible then { s.terminal with notices := s.terminal.notices ||| 0x80 } else s.terminal) ∧
      (inMark s = true → v.radio = s.radio) ∧
      (inMark s = false → ∃ w, changesOnly [.alarm] s w ∧ w.alarm.record = { v.alarm.record with position := some (1, .mark) } ∧
        v.radio = (makeAlert false 1 w).radio))

/-- The marks of the alarm lines (R123, R124, R173): 50 ms at the inactive level arm a line and end its being stuck; 60 s at the active one make it stuck,
logged once, so that a line stuck already is not logged again (the rows carry the timing, log 18); a new sensitivity writes its line's setting alone and
puts that line back to unarmed and not stuck, is refused in an emergency or on duty, and the current one given again changes nothing. -/
def Obligations.AlarmLinesArmStickAndAreSet : Prop :=
  (∀ (line : AlarmLine) (l : Level) (s : State), s.power = .up →
    (activeLevel (lineSensitivity line s) ≠ some l → (lineState line s).armed = false →
      exec (.lineArmed line l) s = .next (sealDomain (setLine line ⟨some l, true, false⟩ s))) ∧
    (activeLevel (lineSensitivity line s) = some l → exec (.lineArmed line l) s = .next (sealDomain s)) ∧
    (∀ active, activeLevel (lineSensitivity line s) = some active → (lineState line s).stuck = false →
      ((lineState line s).level = none ∨ (lineState line s).level = some active) →
      exec (.alarmLineStuck line) s =
        .next (sealDomain (placeFault .alarmLineStuck s.trip.isSome (setLine line ⟨some active, false, true⟩ s)))) ∧
    ((lineState line s).stuck = true → exec (.alarmLineStuck line) s = .next (sealDomain s)) ∧
    (activeLevel (lineSensitivity line s) = none → exec (.alarmLineStuck line) s = .next (sealDomain s))) ∧
  ∀ (line : AlarmLine) (v : Nat) (s u : State), Takes .meter (.setSensitivity line v) s → u = arrived .meter (.setSensitivity line v) s →
    (u.duty.state ≠ .offDuty ∨ u.alarm.record.state ≠ .normal →
      exec (.setSensitivity line v) s = .next (replied .meter (.setSensitivity line v) .refusedState [] u)) ∧
    (u.duty.state = .offDuty → u.alarm.record.state = .normal →
      (3 < v → exec (.setSensitivity line v) s = .next (replied .meter (.setSensitivity line v) .badValue [] u)) ∧
      (∀ x, sensitivityOf v = some x → x = lineSensitivity line u →
        exec (.setSensitivity line v) s = .next (replied .meter (.setSensitivity line v) .ok [] u)) ∧
      (∀ x, sensitivityOf v = some x → x ≠ lineSensitivity line u →
        exec (.setSensitivity line v) s = .next (replied .meter (.setSensitivity line v) .ok [] (match line with
          | .alm0 => { u with settings := { u.settings with sens0 := x }, alarm := { u.alarm with line0 := ⟨none, false, false⟩ } }
          | .alm1 => { u with settings := { u.settings with sens1 := x }, alarm := { u.alarm with line1 := ⟨none, false, false⟩ } }))))

/-- The ways out of an emergency (R55, R131 to R134, R140): the end of the cancel window, ALARM CANCEL within it with its CANCELLED alert, and ALERT SEEN
and STAND DOWN, addressed to this cab's number. A return to NORMAL restores the saved levels and releases the pin: the pinned closed trip leaves the list
if it is reported, and stays unpinned if it is not. At an ALERT SEEN the space that follows a mark in progress is the SUSTAINED space as the settings
stand then (log 17). Given early, the row of the cancel window brings the time base to its end (the model's choice, log 3). -/
def Obligations.EmergenciesAreEnded : Prop :=
  (∀ s : State, s.power = .up →
    (∀ due, s.alarm.cancelDue = some due → exec .cancelWindowExpiry s = .next (sealDomain { s with
      now := max s.now due
      alarm := { s.alarm with cancelDue := none, record := { s.alarm.record with cancelOpen := false } } })) ∧
    (s.alarm.cancelDue = none → exec .cancelWindowExpiry s = .next (sealDomain s))) ∧
  (∀ u v : State, v = returnToNormal u → changesOnly [.alarm, .radio, .closed, .meter, .terminal] u v ∧
    v.alarm = { u.alarm with
      record := { u.alarm.record with
        state := .normal, cancelOpen := false, beaconSet := .urgent, position := none, hold := 0, pinIntent := false }
      cancelDue := none, cycle := none, saved := none } ∧
    v.radio = { u.radio with levels := u.alarm.saved.getD u.radio.levels } ∧
    v.closed = (u.closed.filter (fun c => !(c.pinned && c.reported))).map (fun c => { c with pinned := false }) ∧
    v.meter = { u.meter with notices := u.meter.notices ||| 0x08 } ∧
    v.terminal = (if u.settings.alarmVisible then { u.terminal with notices := u.terminal.notices ||| 0x80 } else u.terminal)) ∧
  (∀ s u : State, Takes .terminal .alarmCancel s → u = arrived .terminal .alarmCancel s →
    (u.alarm.record.state = .normal → exec .alarmCancel s = .next (replied .terminal .alarmCancel .refusedState [] u)) ∧
    (u.alarm.record.state = .seen ∨ (u.alarm.record.state = .alerting ∧ u.alarm.record.cancelOpen = false) →
      exec .alarmCancel s = .next (replied .terminal .alarmCancel .tooLate [] u)) ∧
    (u.alarm.record.state = .alerting → u.alarm.record.cancelOpen = true →
      exec .alarmCancel s = .next (replied .terminal .alarmCancel .ok [] (makeAlert true 3 (returnToNormal u))))) ∧
  (∀ (cab : Nat) (s : State),
    (Delivered (.alertSeen (.cab cab)) s →
      (s.alarm.record.state = .alerting → ∃ v, exec (.alertSeen (.cab cab)) s = .next v ∧ changesOnly [.alarm, .meter, .terminal] s v ∧
        v.alarm = { s.alarm with
          record := { s.alarm.record with state := .seen, cancelOpen := false, beaconSet := .sustained }
          cancelDue := none
          cycle := if s.alarm.record.beaconSet = .urgent ∧ inMark s then
              s.alarm.cycle.map (fun c => { c with space := s.settings.sustained.space })
            else s.alarm.cycle } ∧
        v.meter = { s.meter with notices := s.meter.notices ||| 0x08 } ∧
        v.terminal = (if s.settings.alarmVisible then { s.terminal with notices := s.terminal.notices ||| 0x80 } else s.terminal)) ∧
      (s.alarm.record.state ≠ .alerting → exec (.alertSeen (.cab cab)) s = .next (sealDomain s))) ∧
    (Delivered (.standDown (.cab cab)) s →
      (s.alarm.record.state ≠ .normal → exec (.standDown (.cab cab)) s =
        .next (sealDomain { returnToNormal s with radio := (returnToNormal s).radio.removeOwned .alert })) ∧
      (s.alarm.record.state = .normal → exec (.standDown (.cab cab)) s = .next (sealDomain s)))) ∧
  ∀ (a : Address) (s : State), toCab a = false →
    (Delivered (.alertSeen a) s → exec (.alertSeen a) s = .next (sealDomain s)) ∧
    (Delivered (.standDown a) s → exec (.standDown a) s = .next (sealDomain s))

/-- BEACON HOLD carries a hold count n (R136): in ALERTING or SEEN the hold count takes it, at most 15; in NORMAL, or addressed to all cabs or a zone, it
is ignored. -/
def Obligations.BeaconHoldSetsTheHoldCount : Prop :=
  ∀ (a : Address) (n : Nat) (s : State), Delivered (.beaconHold a n) s →
    (toCab a = true → s.alarm.record.state ≠ .normal →
      exec (.beaconHold a n) s = .next (sealDomain { s with alarm := { s.alarm with record := { s.alarm.record with hold := min n 15 } } })) ∧
    (toCab a = true → s.alarm.record.state = .normal → exec (.beaconHold a n) s = .next (sealDomain s)) ∧
    (toCab a = false → exec (.beaconHold a n) s = .next (sealDomain s))

/-- The beacon (R135, R136): a cycle starts with the values of the set in force, held when the hold count stood above 0, which falls by one; each
burst makes an ALERT unless the cycle is held, and the next burst or, after the last, the next cycle falls due one spacing or one space
later. An ALERT is made so (R138 to R140, R163): while the link is not LOST, an entry that is absent is created READY, one that is not SENDING becomes
READY with retry count 0 and no sequence, and one that is SENDING is refreshed, to be so when its transmission ends, or, where its owner removed it
meanwhile, followed by a new one (R154). While the link is LOST the entry leaves the queue, one that is SENDING when its transmission ends, and the
frame built at that instant goes out blind at once, under KEY for the lead and the air time, or, while KEY is asserted, waits behind the frames that wait
already (their order is the model's choice, log 27); without an identity none goes out. Where the position stands between the bursts is log 17. Given early, a
row brings the time base to the burst or the cycle (the model's choice, log 3). -/
def Obligations.BeaconRunsItsCycles : Prop :=
  (∀ s : State, s.power = .up →
    (∀ n c b, s.alarm.record.state ≠ .normal → s.alarm.record.position = some (n, .space) → s.alarm.cycle = some c →
      b = (match s.alarm.record.beaconSet with
        | .urgent => s.settings.urgent
        | .sustained => s.settings.sustained) →
      exec .beaconCycleStart s = .next (sealDomain { s with
        now := max s.now c.due
        alarm := { s.alarm with
          cycle := some {
            count := b.count, spacing := b.spacing, space := b.space, held := decide (s.alarm.record.hold ≠ 0), nextBurst := 1, due := c.due }
          record := { s.alarm.record with position := some (1, .mark), hold := s.alarm.record.hold - 1 } } })) ∧
    (∀ n c w x, s.alarm.record.state ≠ .normal → s.alarm.record.position = some (n, .mark) → s.alarm.cycle = some c →
      w = { s with now := max s.now c.due } → x = (if c.held then w else makeAlert false (emergencyCode s.alarm.record.state) w) →
      exec .beaconBurst s = .next (sealDomain { x with alarm := { x.alarm with
        cycle := some (if c.nextBurst < c.count then { c with nextBurst := c.nextBurst + 1, due := c.due + c.spacing * 1000 }
          else { c with due := c.due + c.space * 1000 })
        record := { x.alarm.record with position := some (c.nextBurst, if c.nextBurst < c.count then .mark else .space) } } })) ∧
    (s.alarm.record.state = .normal → exec .beaconCycleStart s = .next (sealDomain s) ∧ exec .beaconBurst s = .next (sealDomain s))) ∧
  ∀ (cancelled : Bool) (status : Nat) (s t : State) (frame : List Byte), t = makeAlert cancelled status s →
    frame = uplinkFrame s 1 0 0 (alertPayload status true s) →
    (s.radio.link ≠ .lost → (∀ e ∈ s.radio.queue, e.kind ≠ .alert) → t = { s with radio := { s.radio with
      queue := s.radio.queue ++ [{
        content := .alert cancelled, seq := none, retry := 0, backoff := 0, state := .ready, arrival := s.radio.nextArrival, payload := []
        removed := false, refreshed := false, deferred := none, carriesFailed := false }]
      nextArrival := s.radio.nextArrival + 1 } }) ∧
    (s.radio.link ≠ .lost → (∃ e ∈ s.radio.queue, e.kind = .alert) → t = { s with radio := { s.radio with
      queue := s.radio.queue.map (fun e =>
        if e.kind ≠ .alert then e
        else if e.state ≠ .sending then { e with
          content := .alert cancelled, seq := none, retry := 0, backoff := 0, state := .ready, carriesFailed := false }
        else if e.removed then { e with deferred := some (.alert cancelled) }
        else { e with content := .alert cancelled, refreshed := true }) } }) ∧
    (s.radio.link = .lost → t = { s with radio := { s.radio with
      queue := s.radio.queue.filterMap (fun e =>
        if e.kind ≠ .alert then some e else if e.state = .sending then some { e with removed := true, deferred := none } else none)
      tx := if s.settings.cab ≠ 0 ∧ s.settings.fleet ≠ 0 ∧ s.radio.tx = none then
          some ⟨.blind, frame, s.now, s.now + (s.settings.keyLead + (frame.length * 8000 + s.settings.airRate - 1) / s.settings.airRate)⟩
        else s.radio.tx
      blindWaiting := if s.settings.cab ≠ 0 ∧ s.settings.fleet ≠ 0 ∧ s.radio.tx ≠ none then s.radio.blindWaiting ++ [frame]
        else s.radio.blindWaiting } })

/-! ## The radio link (09) -/

/-- A CYCLE HEAD (R146 to R150, R157, R161, R162). A valid head lowers the backoffs, hands over the acknowledgements of its list unless a head was missed,
passes every entry that then still awaits one through R162, and leaves nothing awaiting; it opens its slot plan, restarts the link timer of 10 s, notes
the cycle number and the grants, and the link is UP, or SLOT TOO SHORT when the frame of some entry fits neither kind of slot (log 29), with the notice
LINK at a change. A head not for all cabs or out of range is dropped. An acknowledged entry leaves the queue and its owner acts (R58, R75, R101, R121);
of one not acknowledged the retry count rises, and an ALERT is READY at once, an entry past its limit leaves and its owner is told (R76, R121), and every
other backs off. A freed general position is offered to the Message Store (R154), in the same step and after the owner of the entry that left has been
told: that order, and so the arrival orders of two entries made in one step, is the model's choice (log 20). The draws are free values (log 8), and
entries are settled in queue order (log 19). -/
def Obligations.HeadsOpenTheCycle : Prop :=
  (∀ (a : Address) (h : HeadFields) (s w x : State), Delivered (.cycleHead a h) s → headValid a h = true →
    w = { s with radio := { s.radio with queue := s.radio.queue.map (fun e =>
      if e.state = .backoff then
        (if e.backoff ≤ 1 then { e with backoff := 0, state := .ready } else { e with backoff := e.backoff - 1 })
      else e) } } →
    x = ((w.radio.queue.filter (fun e => decide (e.state = .awaitingAck))).map Entry.arrival).foldl
      (fun y n => notAcknowledged n y)
      ((if ∃ last, s.radio.lastCycle = some last ∧ h.cycle ≠ (last + 1) % 256 then [] else h.acks).foldl takeAck w) →
    ∀ link, link = (if x.radio.queue.any (fun e =>
        decide (h.ts < x.settings.keyLead + (frameSize x e.kind * 8000 + x.settings.airRate - 1) / x.settings.airRate) &&
        decide (h.tl < x.settings.keyLead + (frameSize x e.kind * 8000 + x.settings.airRate - 1) / x.settings.airRate))
      then LinkState.slotTooShort else .up) →
    (∃ drawn, drawn < h.slots ∧ exec (.cycleHead a h) s = .next (sealDomain { x with
      draws := x.draws + 1
      radio := { x.radio with
        link := link
        linkDue := some (s.now + 10000)
        plan := some {
          headEnd := s.now, slots := h.slots, ts := h.ts, tl := h.tl, grants := h.reservations, drawn := drawn, contentionDone := false
          nextReserved := 0 }
        lastCycle := some h.cycle
        grantedBefore := s.radio.grantedNow
        grantedNow := h.reservations.contains s.settings.cab }
      terminal := if s.radio.link = link then x.terminal else { x.terminal with notices := x.terminal.notices ||| 0x20 } })) ∧
    changesOnly [.draws, .offers, .terminal, .duty, .closed, .totals, .radio, .pool, .messages] s x ∧ x.radio.tx = s.radio.tx ∧
    (QueueLaw s → ∀ e ∈ x.radio.queue, e.state ≠ .awaitingAck)) ∧
  (∀ (a : Address) (h : HeadFields) (s : State), Delivered (.cycleHead a h) s → headValid a h = false →
    exec (.cycleHead a h) s = .next (sealDomain s)) ∧
  (∀ (s d : State) (cab q : Nat) (e : Entry),
    (cab ≠ s.settings.cab → takeAck s (cab, q) = s) ∧
    ((∀ y ∈ s.radio.queue, y.state = .awaitingAck → y.seq ≠ some q) → takeAck s (cab, q) = s) ∧
    (cab = s.settings.cab → e ∈ s.radio.queue → e.state = .awaitingAck → e.seq = some q →
      (∀ y ∈ s.radio.queue, y.state = .awaitingAck → y.seq = some q → y = e) →
      d = { s with radio := { s.radio with queue := s.radio.queue.filter (fun y => y.arrival ≠ e.arrival) } } →
      takeAck s (cab, q) = (match e.content with
        | .alert _ => d
        | .accept n => (match findOffer n s with
          | some o => (match o.state with
            | .accepting due => setOffer n (.awaitingAward due) d
            | _ => d)
          | none => d)
        | .jobEvent _ _ _ => queueWaiting d
        | .receipt _ _ => queueWaiting d
        | .decline _ _ => queueWaiting d
        | .fareTotal => fareTotalAcknowledged d
        | .status _ =>
          if e.carriesFailed = true ∧ s.duty.failedEvent.isSome then { d with
            duty := { s.duty with failedEvent := none }
            terminal := { s.terminal with notices := s.terminal.notices ||| 0x10 } }
          else d
        | .driverMessage n => queueWaiting (resolveOutbound n .delivered d)))) ∧
  (∀ (d : State) (before after : List ClosedTrip) (c : ClosedTrip), d.closed = before ++ c :: after → c.reported = false →
    (∀ x ∈ before, x.reported = true) → ∃ v, fareTotalAcknowledged d = v ∧ changesOnly [.closed, .totals, .radio] d v ∧
      v.closed = before ++ (if c.pinned then [{ c with reported := true }] else []) ++ after ∧
      v.totals = { d.totals with reported := min (d.totals.reported + c.total) 999999999 } ∧
      v.radio = (if v.closed.any (fun x => !x.reported) then d.radio.createReserved .fareTotal else d.radio)) ∧
  (∀ (n : Nat) (st : OutboundState) (d : State) (o : Outbound), findOutbound n d = some o →
    ∃ v, resolveOutbound n st d = v ∧ changesOnly [.pool, .messages, .terminal] d v ∧ v.pool = releaseBlocks o.blocks d.pool ∧
      v.messages.outbound.map Outbound.state = d.messages.outbound.map (fun x => if x.localNumber = n then st else x.state) ∧
      v.messages.outbound.map Outbound.localNumber = d.messages.outbound.map Outbound.localNumber ∧
      v.terminal = { d.terminal with notices := d.terminal.notices ||| 0x08 }) ∧
  (∀ d : State, queueWaiting d = (match d.messages.outbound.find? (fun o => decide (o.state = .waiting)) with
    | none => d
    | some o =>
      if d.radio.generalCount < 8 then { d with
        radio := d.radio.create (.driverMessage o.localNumber)
        messages := { d.messages with
          outbound := d.messages.outbound.map (fun x => if x.localNumber = o.localNumber then { x with state := .queued } else x) } }
      else d)) ∧
  ∀ (n : Nat) (s d : State) (e : Entry), findEntry n s = some e →
    d = { s with radio := { s.radio with queue := s.radio.queue.filter (fun y => y.arrival ≠ n) } } →
    (e.state ≠ .awaitingAck → notAcknowledged n s = s) ∧
    (e.state = .awaitingAck → e.kind = .alert →
      notAcknowledged n s = changeEntry n (fun x => { x with retry := x.retry + 1, backoff := 0, state := .ready }) s) ∧
    (e.state = .awaitingAck → (∀ limit, retryLimit e.kind = some limit → e.retry < limit) → e.kind ≠ .alert →
      ∃ b, b < 2 ^ min (e.retry + 1) 4 ∧ notAcknowledged n s =
        { changeEntry n (fun x => { x with retry := x.retry + 1, backoff := b, state := if b = 0 then .ready else .backoff }) s with
          draws := s.draws + 1 }) ∧
    (∀ limit, e.state = .awaitingAck → retryLimit e.kind = some limit → limit ≤ e.retry →
      notAcknowledged n s = (match e.content with
        | .jobEvent k m _ => queueWaiting (refreshStatus .jobEventFailed { d with
            duty := { s.duty with failedEvent := some ⟨k, m⟩ }
            terminal := { s.terminal with notices := s.terminal.notices ||| 0x10 } })
        | .receipt _ _ => queueWaiting d
        | .decline _ _ => queueWaiting d
        | .driverMessage m => queueWaiting (resolveOutbound m .failed d)
        | _ => d))

/-- The timers of the Uplink Queue and of the link (R149, R161, R162): the last cycle of a backoff makes an entry READY, an entry past its retry limit is
removed and its owner told, and ten seconds without a head lose the link, with the plan, the cycle number and the grants; while it is lost no backoff is
lowered. The guards of the two rows of the Uplink Queue are log 21; given early, the row of the link timer brings the time base to its expiry (the
model's choice, log 3). -/
def Obligations.BackoffsRetriesAndLinkLoss : Prop :=
  ∀ s : State, s.power = .up →
    (s.radio.link = .lost → ∀ n, exec (.backoffEnd n) s = .next (sealDomain s)) ∧
    (s.radio.link ≠ .lost → ∀ n e, findEntry n s = some e → e.state = .backoff → e.backoff ≤ 1 →
      exec (.backoffEnd n) s = .next (sealDomain (changeEntry n (fun x => if x.state = .backoff then
        (if x.backoff ≤ 1 then { x with backoff := 0, state := .ready } else { x with backoff := x.backoff - 1 }) else x) s))) ∧
    (∀ n e limit, findEntry n s = some e → retryLimit e.kind = some limit →
      (limit < e.retry ∨ (e.state = .awaitingAck ∧ limit ≤ e.retry)) →
      exec (.retryLimitReached n) s = .next (sealDomain (ownerFailed e (dropEntry n s)))) ∧
    (∀ n, findEntry n s = none →
      exec (.backoffEnd n) s = .next (sealDomain s) ∧ exec (.retryLimitReached n) s = .next (sealDomain s)) ∧
    (∀ due, s.radio.linkDue = some due → slotTransmission s = false → ∃ v, exec .linkLost s = .next v ∧
      changesOnly [.now, .radio, .terminal] s v ∧ v.now = max s.now due ∧
      v.radio = { s.radio with
        link := .lost, linkDue := none, lastCycle := none, plan := none, grantedNow := false, grantedBefore := false
        queue := s.radio.queue.map (fun e => if e.state = .awaitingAck then { e with state := .ready, backoff := 0 } else e) } ∧
      (s.radio.link ≠ .lost → v.terminal = { s.terminal with notices := s.terminal.notices ||| 0x20 })) ∧
    (s.radio.linkDue = none → exec .linkLost s = .next (sealDomain s))

/-- The slots and the ends of transmissions (R59, R147, R154, R155, R157 to R160, R163): the drawn contention slot and each reserved slot granted to
this cab send the first candidate, its payload built now, with KEY asserted for the lead and the air time; it keeps the sequence it has (a retry, R156)
or, of a queue of at most 12 entries, takes the first from the next sequence on, modulo 16, that no entry holds, and the next is the one after it;
without a candidate the first sends a RESERVATION REQUEST when its conditions hold (log 32); a slot whose start is past sends nothing. The candidates
are the READY entries whose frame fits the slot, for a contention slot only the short ones of a level above 0; the first is one that no other goes
before: ALERT goes before every other kind, then the higher level, then the lower rank, then the older arrival. The conditions are R159's: some READY
entry waits for a reserved slot (long, of level 0, or too long for Ts), neither this head nor the valid one before it granted this cab a slot, and the
request's 18 bytes fit Ts. A complete transmission leaves its entry AWAITING ACK, or READY if its owner refreshed it meanwhile, or gone if its owner
removed it, with the creation that waited for its position; a FARE TOTAL clears the unsent flag of the trip it carried; reception is blanked for 20 ms,
and a blind frame that waits for KEY goes out: the one asked for first (the model's choice, log 27), as it was built then (the model's choice, log 35).
Given early, a row brings the time base to its instant (the model's choice, log 3). -/
def Obligations.SlotsSendTheFirstCandidate : Prop :=
  (∀ (s u : State) (p : Plan), s.power = .up → s.radio.plan = some p → s.radio.tx = none →
    (s.now ≤ p.headEnd + p.drawn * p.ts → p.contentionDone = false → u = { s with
        now := p.headEnd + p.drawn * p.ts
        radio := { s.radio with plan := some { p with contentionDone := true } } } →
      (identitySet s = false → exec .contentionSlot s = .next (sealDomain u)) ∧
      (identitySet s = true →
        (∀ e, firstOf u.radio.levels (contentionCandidates u p.ts) = some e → exec .contentionSlot s = .next (sealDomain (sendEntry e u))) ∧
        (contentionCandidates u p.ts = [] → wantsReservation p.ts u = true →
          exec .contentionSlot s = .next (sealDomain (transmit .reservationRequest (requestFrame u) u))) ∧
        (contentionCandidates u p.ts = [] → wantsReservation p.ts u = false → exec .contentionSlot s = .next (sealDomain u)))) ∧
    (p.headEnd + p.drawn * p.ts < s.now ∨ p.contentionDone = true → exec .contentionSlot s = .next (sealDomain s)) ∧
    (∀ j, (p.nextReserved ≤ j → p.grants[j]? = some s.settings.cab → s.now ≤ p.headEnd + p.slots * p.ts + j * p.tl → u = { s with
        now := p.headEnd + p.slots * p.ts + j * p.tl
        radio := { s.radio with plan := some { p with contentionDone := true, nextReserved := j + 1 } } } →
      (identitySet s = false → exec (.reservedSlot j) s = .next (sealDomain u)) ∧
      (identitySet s = true →
        (∀ e, firstOf u.radio.levels (reservedCandidates u p.tl) = some e → exec (.reservedSlot j) s = .next (sealDomain (sendEntry e u))) ∧
        (reservedCandidates u p.tl = [] → exec (.reservedSlot j) s = .next (sealDomain u)))) ∧
      (j < p.nextReserved ∨ p.grants[j]? ≠ some s.settings.cab ∨ p.headEnd + p.slots * p.ts + j * p.tl < s.now →
        exec (.reservedSlot j) s = .next (sealDomain s)))) ∧
  (∀ (s : State) (duration : Nat) (e : Entry),
    (e ∈ contentionCandidates s duration ↔ e ∈ s.radio.queue ∧ e.state = .ready ∧ e.kind ≠ .fareTotal ∧ e.kind ≠ .driverMessage ∧
      (e.kind = .alert ∨ s.radio.levels.get e.kind ≠ 0) ∧
      s.settings.keyLead + (frameSize s e.kind * 8000 + s.settings.airRate - 1) / s.settings.airRate ≤ duration) ∧
    (e ∈ reservedCandidates s duration ↔ e ∈ s.radio.queue ∧ e.state = .ready ∧
      s.settings.keyLead + (frameSize s e.kind * 8000 + s.settings.airRate - 1) / s.settings.airRate ≤ duration)) ∧
  (∀ (l : Levels) (es : List Entry), (firstOf l es = none ↔ es = []) ∧
    ∀ e, firstOf l es = some e → e ∈ es ∧ ∀ x ∈ es, goesBefore l x e = false) ∧
  (∀ (l : Levels) (a b : Entry) (rank : Kind → Nat), (∀ k, k ≠ .alert → l.get k ≤ 3) →
    rank = (fun k => match k with
      | .alert => 1
      | .accept => 2
      | .jobEvent => 3
      | .fareTotal => 4
      | .receipt => 5
      | .status => 6
      | .decline => 7
      | .driverMessage => 8) →
    (goesBefore l a b = true ↔
      (a.kind = .alert ∧ b.kind ≠ .alert) ∨
      (a.kind ≠ .alert ∧ b.kind ≠ .alert ∧ l.get b.kind < l.get a.kind) ∨
      (a.kind ≠ .alert ∧ b.kind ≠ .alert ∧ l.get a.kind = l.get b.kind ∧ rank a.kind < rank b.kind) ∨
      (a.kind = b.kind ∧ a.arrival < b.arrival))) ∧
  (∀ (u : State) (p : Plan), u.radio.plan = some p →
    (wantsReservation p.ts u = true ↔
      (∃ e ∈ u.radio.queue, e.state = .ready ∧
        (e.kind = .fareTotal ∨ e.kind = .driverMessage ∨ (e.kind ≠ .alert ∧ u.radio.levels.get e.kind = 0) ∨
          p.ts < u.settings.keyLead + (frameSize u e.kind * 8000 + u.settings.airRate - 1) / u.settings.airRate)) ∧
      u.radio.grantedNow = false ∧ u.radio.grantedBefore = false ∧
      u.settings.keyLead + (18 * 8000 + u.settings.airRate - 1) / u.settings.airRate ≤ p.ts)) ∧
  (∀ (u : State) (e : Entry) (q : Nat) (frame : List Byte), e ∈ u.radio.queue → q = sequenceFor u.radio e →
    frame = uplinkFrame u (kindCode e.kind) q (frameFlags e u) (buildPayload e.content u) →
    sendEntry e u = { u with radio := { u.radio with
      tx := some ⟨.entry e.arrival, frame, u.now,
        u.now + (u.settings.keyLead + (frame.length * 8000 + u.settings.airRate - 1) / u.settings.airRate)⟩
      queue := u.radio.queue.map (fun x => if x.arrival = e.arrival then { x with
          seq := some q, payload := buildPayload e.content u, state := .sending
          carriesFailed := decide (e.kind = .status) && u.duty.failedEvent.isSome }
        else x)
      nextSeq := if e.seq.isSome then u.radio.nextSeq else (q + 1) % 16 } } ∧
    (∀ own, e.seq = some own → q = own) ∧
    (e.seq = none → u.radio.queue.length ≤ 12 → u.radio.nextSeq < 16 → ∃ k, k < 16 ∧ q = (u.radio.nextSeq + k) % 16 ∧
      (∀ x ∈ u.radio.queue, x.seq ≠ some q) ∧ ∀ j < k, ∃ x ∈ u.radio.queue, x.seq = some ((u.radio.nextSeq + j) % 16))) ∧
  ∀ (s : State) (t : Transmission), s.power = .up → s.radio.tx = some t → ∃ v,
    exec (if t.kind = .blind then .blindTransmissionEnd else .transmissionEnd) s = .next v ∧ changesOnly [.now, .closed, .radio] s v ∧
    v.now = max s.now t.ends ∧ v.radio.blankedUntil = some (max s.now t.ends + 20) ∧
    v.radio.blindWaiting = s.radio.blindWaiting.drop 1 ∧
    v.radio.tx = s.radio.blindWaiting.head?.map (fun f => ⟨.blind, f, v.now,
      v.now + (s.settings.keyLead + (f.length * 8000 + s.settings.airRate - 1) / s.settings.airRate)⟩) ∧
    (∀ n e, t.kind = .entry n → findEntry n s = some e →
      (e.removed = false →
        findEntry n v = some (if e.refreshed then { e with
            state := .ready, retry := 0, backoff := 0, seq := none, refreshed := false, carriesFailed := false }
          else { e with state := .awaitingAck, backoff := 0 })) ∧
      (e.removed = true → v.radio.queue = s.radio.queue.filter (fun x => x.arrival ≠ n) ++
        (match e.deferred with
        | some c => [newEntry c s.radio.nextArrival]
        | none => [])) ∧
      (e.kind ≠ .fareTotal → v.closed = s.closed) ∧
      (e.kind = .fareTotal → ∀ before c after, s.closed = before ++ c :: after → (∀ x ∈ before, x.reported = true) → c.reported = false →
        v.closed = before ++ { c with unsent := false } :: after)) ∧
    ((∀ n, t.kind ≠ .entry n) → v.closed = s.closed ∧ v.radio.queue = s.radio.queue)

/-- What is not for this cab is not taken (R143 to R145): with no fleet code, while KEY is asserted, addressed to another cab, or with a bit that fell
within 20 ms of KEY's release, no downlink command changes anything. Nor does a frame heard but malformed or not for one cab (R111, R145): an AWARD, LOST,
WITHDRAW or JOB CANCEL to all cabs or a zone or of number 0, an OFFER of number 0 or of a zone outside 1 to 999, a MESSAGE of number 0, of a class that
is none of the four or of a length outside 1 to 120. Nor does a frame from the air that the Air Framer drops, while one that it passes is
delivered as its command, unless its sender marks it as blanked. A row stands for a frame whose last bit comes now and whose bits went out at the air
bit rate (the model's choice, log 22). -/
def Obligations.UnheardFramesAreDropped : Prop :=
  (∀ (c : Instr) (a : Address) (s : State), s.power = .up → downlinkAddress c = some a →
    (s.settings.fleet = 0 ∨ s.radio.tx.isSome ∨ (∃ n, a = .cab n ∧ n ≠ s.settings.cab) ∨
      ∃ ended, s.radio.blankedUntil = some ended ∧
        s.now < ended + (downlinkBytes c * 8000 + s.settings.airRate - 1) / s.settings.airRate) → exec c s = .next (sealDomain s)) ∧
  (∀ (a : Address) (n : Nat) (s : State), s.power = .up → toCab a = false ∨ n = 0 →
    exec (.award a n) s = .next (sealDomain s) ∧ exec (.lost a n) s = .next (sealDomain s) ∧
    exec (.withdraw a n) s = .next (sealDomain s) ∧ exec (.jobCancel a n) s = .next (sealDomain s)) ∧
  (∀ (a : Address) (o : OfferFields) (s : State), s.power = .up → o.number = 0 ∨ o.zone = 0 ∨ 999 < o.zone →
    exec (.offer a o) s = .next (sealDomain s)) ∧
  (∀ (a : Address) (n cls : Nat) (text : List Byte) (s : State), s.power = .up → n = 0 ∨ 3 < cls ∨ text = [] ∨ 120 < text.length →
    exec (.message a n cls text) s = .next (sealDomain s)) ∧
  ∀ (frame : List Byte) (s : State), s.power = .up →
    exec (.airFrameDropped frame true) s = .next (sealDomain s) ∧
    (s.radio.tx.isSome ∨ airFramer s.settings.fleet frame = none → exec (.airFrameDropped frame false) s = .next (sealDomain s)) ∧
    (∀ c, airFramer s.settings.fleet frame = some c → exec (.airFrameDropped frame false) s = exec c s)

/-- SET POSITION and SET PRIORITY (R129, R152, R153): a position in range is held with the instant at which the Radio Link takes it, which for a request
handed on earlier is the model's choice of R153's instant of arrival (log 37); a level is brought within the bounds of its kind and
goes to the saved copy during an emergency. -/
def Obligations.PositionAndPrioritiesAreHeld : Prop :=
  (∀ (la lo : Int) (s u : State), Takes .terminal (.setPosition la lo) s → u = arrived .terminal (.setPosition la lo) s →
    (-9000000 ≤ la ∧ la ≤ 9000000 ∧ -18000000 ≤ lo ∧ lo ≤ 18000000 →
      exec (.setPosition la lo) s = .next (replied .terminal (.setPosition la lo) .ok [] { u with
        radio := { u.radio with fix := some ⟨la, lo, u.now⟩ } })) ∧
    (¬(-9000000 ≤ la ∧ la ≤ 9000000 ∧ -18000000 ≤ lo ∧ lo ≤ 18000000) →
      exec (.setPosition la lo) s = .next (replied .terminal (.setPosition la lo) .badValue [] u))) ∧
  ∀ (k v : Nat) (s u : State), Takes .terminal (.setPriority k v) s → u = arrived .terminal (.setPriority k v) s →
    (k < 2 ∨ 8 < k → exec (.setPriority k v) s = .next (replied .terminal (.setPriority k v) .badValue [] u)) ∧
    (∀ kind least level r, levelKindOf k = some kind →
      least = (match kind with
        | .accept => 2
        | .fareTotal => 2
        | .jobEvent => 1
        | _ => 0) →
      level = max least (min v 3) → r = (if level = v then Result.ok else Result.held) →
      (u.alarm.record.state = .normal → exec (.setPriority k v) s = .next (replied .terminal (.setPriority k v) r [] { u with
        radio := { u.radio with levels := u.radio.levels.set kind level } })) ∧
      (u.alarm.record.state ≠ .normal → exec (.setPriority k v) s = .next (replied .terminal (.setPriority k v) r [] { u with
        alarm := { u.alarm with saved := u.alarm.saved.map (fun l => l.set kind level) } })))

/-- Every uplink frame has the length by which its fit in a slot is judged (R150, R176): 24 bytes for an ALERT, 48 for a FARE TOTAL, 80 for a DRIVER
MESSAGE, 20 for a STATUS with a failed job event and 18 for every other. -/
def Obligations.UplinkFramesHaveTheirLengths : Prop :=
  ∀ (c : Content) (kind seq flags : Nat) (s : State),
    (∀ o ∈ s.messages.outbound, ∀ ref, o.content = .text ref → ref.length ≤ 60) →
    (uplinkFrame s kind seq flags (buildPayload c s)).length = frameSize s (contentKind c) ∧
    frameSize s (contentKind c) =
      (match contentKind c with
      | .alert => 24
      | .fareTotal => 48
      | .driverMessage => 80
      | .status => if s.duty.failedEvent.isSome then 20 else 18
      | _ => 18)

/-! ## Supply and the Fault Log (12) -/

/-- Loss of supply and the two starts (R31, R49, R141, R164, R171, R178, R179): a part that is down takes nothing but the clock's tick, a further loss and a
start; a loss keeps the Retained Domain with its check value and resets the rest: both ports with every kind enabled, the requests handed on, the alarm
lines, the timers, the queue. A start whose recomputed check value equals the stored one is warm and keeps the domain, and any other is cold. A warm start
that completes discards and logs each image that fails, counts, logs and tells of the interruption of a RUNNING trip, creates the FARE TOTAL of an
unreported entry and restarts the beacon of an emergency, told of and with its cancel window closed, under its set, held or with a burst at once; that the
burst goes out blind and leaves no ALERT in the queue is the model's choice between R139 and R164 (log 36), and that it comes after step 6 is log 28. A
start that a loss abandons after a step keeps what that step changed: the next counts a second interruption of a RUNNING trip, and does not log an image
again that is already discarded (logs 5 to 7). That no blanking is left after a loss or a start, which the reset of the Radio Link says here, is the
model's choice too (log 31). CLEAR FAULTS empties the log while no trip is in progress (R181). -/
def Obligations.SupplyLossAndStarts : Prop :=
  (∀ (c : Instr) (s : State), s.power = .down → c ≠ .clockTick → c ≠ .start → (∀ f, c ≠ .vmainLossOrReset f) → exec c s = .next s) ∧
  (∀ s : State, ∃ v, exec (.vmainLossOrReset .kept) s = .next v ∧ v.domainCheck = s.domainCheck ∧
    computeDomainCheck v = computeDomainCheck s ∧ v.trip = s.trip ∧
    v.closed = s.closed ∧ v.totals = s.totals ∧ v.settings = s.settings ∧ v.faults = s.faults ∧
    v.tariff = { s.tariff with staged := Staged.empty } ∧ v.alarm.record = s.alarm.record) ∧
  (∀ (fate : DomainFate) (s : State), ∃ v, exec (.vmainLossOrReset fate) s = .next v ∧ v.power = .down ∧ v.tariff.staged = Staged.empty ∧
    v.radio = Radio.reset ∧ v.offers = OfferTable.reset ∧ v.messages = MessageStore.reset ∧ v.pool = poolFree ∧ v.dist = ⟨0, 0⟩ ∧
    v.duty = { DutyUnit.reset with state := if v.trip.isSome then .hired else .offDuty } ∧ v.evalDue = none ∧ v.resumeDue = none ∧
    v.handed = [] ∧ v.meter = { buffer := .empty, notices := 0, enabled := 0x3F, answer := [] } ∧
    v.terminal = { buffer := .empty, notices := 0, enabled := 0xFF, answer := [] } ∧
    v.alarm = {
      record := v.alarm.record, cancelDue := none, cycle := none, saved := none, latch := false
      line0 := ⟨none, false, false⟩, line1 := ⟨none, false, false⟩ }) ∧
  (∀ s : State, ∃ v, exec (.vmainLossOrReset .lost) s = .next v ∧ v.power = .down ∧ v.domainCheck ≠ computeDomainCheck v) ∧
  (∀ s : State, s.domainCheck ≠ computeDomainCheck s →
    exec .start s = .next { State.reset with pending := s.pending, draws := s.draws } ∧
    ∀ r, ∃ v, exec (.vmainLossOrReset (.leftByStart r)) s = .next v ∧ v.power = .down ∧ v.domainCheck = computeDomainCheck v ∧
      v.trip = none ∧ v.settings = Settings.cold ∧ v.tariff = TariffStore.cold ∧ v.closed = [] ∧ v.totals = Totals.zero ∧
      v.alarm.record = EmergencyRecord.cold ∧ v.faults = [⟨.retainedLost, ClockReading.unset, false⟩]) ∧
  (∀ s : State, s.domainCheck = computeDomainCheck s →
    (∀ (badActive badPending running emergency : Bool) (x : BeaconSetting),
      badActive = s.tariff.active.any (fun i => decide (imageCheck i.image ≠ i.check)) →
      badPending = s.tariff.pending.any (fun i => decide (imageCheck i.image ≠ i.check)) →
      running = tripRunning s → emergency = decide (s.alarm.record.state ≠ .normal) →
      x = (match s.alarm.record.beaconSet with
        | .urgent => s.settings.urgent
        | .sustained => s.settings.sustained) →
      ∃ v, exec .start s = .next v ∧ v.power = .up ∧ v.domainCheck = computeDomainCheck v ∧ v.closed = s.closed ∧ v.settings = s.settings ∧
      v.tariff = { s.tariff with
        active := s.tariff.active.filter (fun i => decide (imageCheck i.image = i.check))
        pending := s.tariff.pending.filter (fun i => decide (imageCheck i.image = i.check))
        staged := Staged.empty } ∧
      v.duty = { DutyUnit.reset with state := if s.trip.isSome then .hired else .offDuty } ∧
      v.offers = OfferTable.reset ∧ v.messages = MessageStore.reset ∧ v.pool = poolFree ∧ v.dist = ⟨0, 0⟩ ∧ v.handed = [] ∧
      v.resumeDue = none ∧ v.evalDue = (if running && v.tariff.active.isSome then some (v.now + 1000) else none) ∧
      (s.trip = none → v.trip = none) ∧
      (∀ t, s.trip = some t → t.phase = .running →
        v.trip = some { t with interruptions := min (t.interruptions + 1) 15 } ∧
        v.totals = { s.totals with interruptions := min (s.totals.interruptions + 1) 999999999 }) ∧
      (∀ t, s.trip = some t → t.phase ≠ .running →
        v.trip = some (if v.tariff.active.isSome then t else { t with phase := .stopped t.fare 0 })) ∧
      (running = false → v.totals = s.totals) ∧
      v.faults = logFault running .powerInterrupted s.tariff.clock true
        (logFault badPending .tariffCheckFailed s.tariff.clock s.trip.isSome
          (logFault badActive .tariffCheckFailed s.tariff.clock s.trip.isSome s.faults)) ∧
      v.meter = {
        buffer := .empty, enabled := 0x3F, answer := []
        notices := (if badActive || badPending || running then 0x20 else 0) ||| (if running then 0x10 else 0) |||
          (if emergency then 0x08 else 0) } ∧
      v.terminal = { buffer := .empty, enabled := 0xFF, answer := [], notices := if emergency && s.settings.alarmVisible then 0x80 else 0 } ∧
      v.alarm = {
        record := if emergency then { s.alarm.record with
            cancelOpen := false, hold := s.alarm.record.hold - 1, position := some (1, if 1 < x.count then .mark else .space) }
          else s.alarm.record
        cycle := if emergency then some {
            count := x.count, spacing := x.spacing, space := x.space, held := decide (0 < s.alarm.record.hold)
            nextBurst := if 1 < x.count then 2 else 1, due := v.now + (if 1 < x.count then x.spacing else x.space) * 1000 }
          else none
        saved := if emergency then some Levels.default else none
        cancelDue := none, latch := false, line0 := ⟨none, false, false⟩, line1 := ⟨none, false, false⟩ } ∧
      (∀ frame, frame = uplinkFrame v 1 0 0 (alertPayload (emergencyCode s.alarm.record.state) true v) → v.radio = { Radio.reset with
        queue := if s.closed.any (fun c => !c.reported) then [newEntry .fareTotal 1] else []
        nextArrival := if s.closed.any (fun c => !c.reported) then 2 else 1
        levels := if emergency then Levels.zero else Levels.default
        tx := if emergency = true ∧ s.alarm.record.hold = 0 ∧ s.settings.cab ≠ 0 ∧ s.settings.fleet ≠ 0 then
            some ⟨.blind, frame, v.now, v.now + (s.settings.keyLead + (frame.length * 8000 + s.settings.airRate - 1) / s.settings.airRate)⟩
          else none })) ∧
    (∀ r, ∃ v, exec (.vmainLossOrReset (.leftByStart r)) s = .next v ∧ v.power = .down ∧ v.domainCheck = computeDomainCheck v ∧
      v.closed = s.closed ∧ v.settings = s.settings ∧ v.tariff.clock = s.tariff.clock ∧ v.radio = Radio.reset ∧
      (r ≠ .kind → ∀ i, s.tariff.active = some i →
        v.tariff.active = if imageCheck i.image = i.check then some i else none) ∧
      (r = .images → v.trip = s.trip ∧ v.faults =
        logFault (s.tariff.pending.any (fun i => decide (imageCheck i.image ≠ i.check))) .tariffCheckFailed s.tariff.clock s.trip.isSome
          (logFault (s.tariff.active.any (fun i => decide (imageCheck i.image ≠ i.check))) .tariffCheckFailed s.tariff.clock s.trip.isSome
            s.faults)) ∧
      ((r = .trip ∨ r = .emergency) → ∀ t, s.trip = some t → t.phase = .running →
        v.trip = some { t with interruptions := min (t.interruptions + 1) 15 } ∧
        v.totals = { s.totals with interruptions := min (s.totals.interruptions + 1) 999999999 } ∧
        ∃ u, exec .start v = .next u ∧
          u.trip = some { t with interruptions := min (t.interruptions + 2) 15 } ∧
          u.faults = logFault true .powerInterrupted s.tariff.clock true v.faults))) ∧
  ∀ s u : State, Takes .meter .clearFaults s → u = arrived .meter .clearFaults s →
    (u.trip = none → exec .clearFaults s = .next (replied .meter .clearFaults .ok [] { u with faults := [] })) ∧
    (u.trip.isSome → exec .clearFaults s = .next (replied .meter .clearFaults .refusedState [] u))
end

