-- ==== Sys2Proof/Laws/State.lean ====
section
/-! SUPPORT. One lemma for each field of State under each plain update of it, so that no later proof unfolds a record update. -/

namespace Sys2Proof.Machine

open Sys2Proof

/-! ### reach -/

@[simp] theorem reach_pending (due : Nat) (s : State) : (reach due s).pending = s.pending := rfl
@[simp] theorem reach_power (due : Nat) (s : State) : (reach due s).power = s.power := rfl
@[simp] theorem reach_now (due : Nat) (s : State) : (reach due s).now = max s.now due := rfl
@[simp] theorem reach_draws (due : Nat) (s : State) : (reach due s).draws = s.draws := rfl
@[simp] theorem reach_domainCheck (due : Nat) (s : State) : (reach due s).domainCheck = s.domainCheck := rfl
@[simp] theorem reach_handed (due : Nat) (s : State) : (reach due s).handed = s.handed := rfl
@[simp] theorem reach_dist (due : Nat) (s : State) : (reach due s).dist = s.dist := rfl
@[simp] theorem reach_evalDue (due : Nat) (s : State) : (reach due s).evalDue = s.evalDue := rfl
@[simp] theorem reach_tariff (due : Nat) (s : State) : (reach due s).tariff = s.tariff := rfl
@[simp] theorem reach_trip (due : Nat) (s : State) : (reach due s).trip = s.trip := rfl
@[simp] theorem reach_resumeDue (due : Nat) (s : State) : (reach due s).resumeDue = s.resumeDue := rfl
@[simp] theorem reach_closed (due : Nat) (s : State) : (reach due s).closed = s.closed := rfl
@[simp] theorem reach_totals (due : Nat) (s : State) : (reach due s).totals = s.totals := rfl
@[simp] theorem reach_duty (due : Nat) (s : State) : (reach due s).duty = s.duty := rfl
@[simp] theorem reach_pool (due : Nat) (s : State) : (reach due s).pool = s.pool := rfl
@[simp] theorem reach_offers (due : Nat) (s : State) : (reach due s).offers = s.offers := rfl
@[simp] theorem reach_messages (due : Nat) (s : State) : (reach due s).messages = s.messages := rfl
@[simp] theorem reach_alarm (due : Nat) (s : State) : (reach due s).alarm = s.alarm := rfl
@[simp] theorem reach_radio (due : Nat) (s : State) : (reach due s).radio = s.radio := rfl
@[simp] theorem reach_meter (due : Nat) (s : State) : (reach due s).meter = s.meter := rfl
@[simp] theorem reach_terminal (due : Nat) (s : State) : (reach due s).terminal = s.terminal := rfl
@[simp] theorem reach_settings (due : Nat) (s : State) : (reach due s).settings = s.settings := rfl
@[simp] theorem reach_faults (due : Nat) (s : State) : (reach due s).faults = s.faults := rfl

/-! ### sealDomain -/

@[simp] theorem sealDomain_pending (s : State) : (sealDomain s).pending = s.pending := rfl
@[simp] theorem sealDomain_power (s : State) : (sealDomain s).power = s.power := rfl
@[simp] theorem sealDomain_now (s : State) : (sealDomain s).now = s.now := rfl
@[simp] theorem sealDomain_draws (s : State) : (sealDomain s).draws = s.draws := rfl
@[simp] theorem sealDomain_domainCheck (s : State) : (sealDomain s).domainCheck = computeDomainCheck s := rfl
@[simp] theorem sealDomain_handed (s : State) : (sealDomain s).handed = s.handed := rfl
@[simp] theorem sealDomain_dist (s : State) : (sealDomain s).dist = s.dist := rfl
@[simp] theorem sealDomain_evalDue (s : State) : (sealDomain s).evalDue = s.evalDue := rfl
@[simp] theorem sealDomain_tariff (s : State) : (sealDomain s).tariff = s.tariff := rfl
@[simp] theorem sealDomain_trip (s : State) : (sealDomain s).trip = s.trip := rfl
@[simp] theorem sealDomain_resumeDue (s : State) : (sealDomain s).resumeDue = s.resumeDue := rfl
@[simp] theorem sealDomain_closed (s : State) : (sealDomain s).closed = s.closed := rfl
@[simp] theorem sealDomain_totals (s : State) : (sealDomain s).totals = s.totals := rfl
@[simp] theorem sealDomain_duty (s : State) : (sealDomain s).duty = s.duty := rfl
@[simp] theorem sealDomain_pool (s : State) : (sealDomain s).pool = s.pool := rfl
@[simp] theorem sealDomain_offers (s : State) : (sealDomain s).offers = s.offers := rfl
@[simp] theorem sealDomain_messages (s : State) : (sealDomain s).messages = s.messages := rfl
@[simp] theorem sealDomain_alarm (s : State) : (sealDomain s).alarm = s.alarm := rfl
@[simp] theorem sealDomain_radio (s : State) : (sealDomain s).radio = s.radio := rfl
@[simp] theorem sealDomain_meter (s : State) : (sealDomain s).meter = s.meter := rfl
@[simp] theorem sealDomain_terminal (s : State) : (sealDomain s).terminal = s.terminal := rfl
@[simp] theorem sealDomain_settings (s : State) : (sealDomain s).settings = s.settings := rfl
@[simp] theorem sealDomain_faults (s : State) : (sealDomain s).faults = s.faults := rfl

/-! ### noticeMeter -/

@[simp] theorem noticeMeter_pending (k : BitVec 8) (s : State) : (noticeMeter k s).pending = s.pending := rfl
@[simp] theorem noticeMeter_power (k : BitVec 8) (s : State) : (noticeMeter k s).power = s.power := rfl
@[simp] theorem noticeMeter_now (k : BitVec 8) (s : State) : (noticeMeter k s).now = s.now := rfl
@[simp] theorem noticeMeter_draws (k : BitVec 8) (s : State) : (noticeMeter k s).draws = s.draws := rfl
@[simp] theorem noticeMeter_domainCheck (k : BitVec 8) (s : State) : (noticeMeter k s).domainCheck = s.domainCheck := rfl
@[simp] theorem noticeMeter_handed (k : BitVec 8) (s : State) : (noticeMeter k s).handed = s.handed := rfl
@[simp] theorem noticeMeter_dist (k : BitVec 8) (s : State) : (noticeMeter k s).dist = s.dist := rfl
@[simp] theorem noticeMeter_evalDue (k : BitVec 8) (s : State) : (noticeMeter k s).evalDue = s.evalDue := rfl
@[simp] theorem noticeMeter_tariff (k : BitVec 8) (s : State) : (noticeMeter k s).tariff = s.tariff := rfl
@[simp] theorem noticeMeter_trip (k : BitVec 8) (s : State) : (noticeMeter k s).trip = s.trip := rfl
@[simp] theorem noticeMeter_resumeDue (k : BitVec 8) (s : State) : (noticeMeter k s).resumeDue = s.resumeDue := rfl
@[simp] theorem noticeMeter_closed (k : BitVec 8) (s : State) : (noticeMeter k s).closed = s.closed := rfl
@[simp] theorem noticeMeter_totals (k : BitVec 8) (s : State) : (noticeMeter k s).totals = s.totals := rfl
@[simp] theorem noticeMeter_duty (k : BitVec 8) (s : State) : (noticeMeter k s).duty = s.duty := rfl
@[simp] theorem noticeMeter_pool (k : BitVec 8) (s : State) : (noticeMeter k s).pool = s.pool := rfl
@[simp] theorem noticeMeter_offers (k : BitVec 8) (s : State) : (noticeMeter k s).offers = s.offers := rfl
@[simp] theorem noticeMeter_messages (k : BitVec 8) (s : State) : (noticeMeter k s).messages = s.messages := rfl
@[simp] theorem noticeMeter_alarm (k : BitVec 8) (s : State) : (noticeMeter k s).alarm = s.alarm := rfl
@[simp] theorem noticeMeter_radio (k : BitVec 8) (s : State) : (noticeMeter k s).radio = s.radio := rfl
@[simp] theorem noticeMeter_meter (k : BitVec 8) (s : State) : (noticeMeter k s).meter = s.meter.place k := rfl
@[simp] theorem noticeMeter_terminal (k : BitVec 8) (s : State) : (noticeMeter k s).terminal = s.terminal := rfl
@[simp] theorem noticeMeter_settings (k : BitVec 8) (s : State) : (noticeMeter k s).settings = s.settings := rfl
@[simp] theorem noticeMeter_faults (k : BitVec 8) (s : State) : (noticeMeter k s).faults = s.faults := rfl

/-! ### noticeTerminal -/

@[simp] theorem noticeTerminal_pending (k : BitVec 8) (s : State) : (noticeTerminal k s).pending = s.pending := rfl
@[simp] theorem noticeTerminal_power (k : BitVec 8) (s : State) : (noticeTerminal k s).power = s.power := rfl
@[simp] theorem noticeTerminal_now (k : BitVec 8) (s : State) : (noticeTerminal k s).now = s.now := rfl
@[simp] theorem noticeTerminal_draws (k : BitVec 8) (s : State) : (noticeTerminal k s).draws = s.draws := rfl
@[simp] theorem noticeTerminal_domainCheck (k : BitVec 8) (s : State) : (noticeTerminal k s).domainCheck = s.domainCheck := rfl
@[simp] theorem noticeTerminal_handed (k : BitVec 8) (s : State) : (noticeTerminal k s).handed = s.handed := rfl
@[simp] theorem noticeTerminal_dist (k : BitVec 8) (s : State) : (noticeTerminal k s).dist = s.dist := rfl
@[simp] theorem noticeTerminal_evalDue (k : BitVec 8) (s : State) : (noticeTerminal k s).evalDue = s.evalDue := rfl
@[simp] theorem noticeTerminal_tariff (k : BitVec 8) (s : State) : (noticeTerminal k s).tariff = s.tariff := rfl
@[simp] theorem noticeTerminal_trip (k : BitVec 8) (s : State) : (noticeTerminal k s).trip = s.trip := rfl
@[simp] theorem noticeTerminal_resumeDue (k : BitVec 8) (s : State) : (noticeTerminal k s).resumeDue = s.resumeDue := rfl
@[simp] theorem noticeTerminal_closed (k : BitVec 8) (s : State) : (noticeTerminal k s).closed = s.closed := rfl
@[simp] theorem noticeTerminal_totals (k : BitVec 8) (s : State) : (noticeTerminal k s).totals = s.totals := rfl
@[simp] theorem noticeTerminal_duty (k : BitVec 8) (s : State) : (noticeTerminal k s).duty = s.duty := rfl
@[simp] theorem noticeTerminal_pool (k : BitVec 8) (s : State) : (noticeTerminal k s).pool = s.pool := rfl
@[simp] theorem noticeTerminal_offers (k : BitVec 8) (s : State) : (noticeTerminal k s).offers = s.offers := rfl
@[simp] theorem noticeTerminal_messages (k : BitVec 8) (s : State) : (noticeTerminal k s).messages = s.messages := rfl
@[simp] theorem noticeTerminal_alarm (k : BitVec 8) (s : State) : (noticeTerminal k s).alarm = s.alarm := rfl
@[simp] theorem noticeTerminal_radio (k : BitVec 8) (s : State) : (noticeTerminal k s).radio = s.radio := rfl
@[simp] theorem noticeTerminal_meter (k : BitVec 8) (s : State) : (noticeTerminal k s).meter = s.meter := rfl
@[simp] theorem noticeTerminal_terminal (k : BitVec 8) (s : State) : (noticeTerminal k s).terminal = s.terminal.place k := rfl
@[simp] theorem noticeTerminal_settings (k : BitVec 8) (s : State) : (noticeTerminal k s).settings = s.settings := rfl
@[simp] theorem noticeTerminal_faults (k : BitVec 8) (s : State) : (noticeTerminal k s).faults = s.faults := rfl

/-! ### setPlan -/

@[simp] theorem setPlan_pending (p : Plan) (s : State) : (setPlan p s).pending = s.pending := rfl
@[simp] theorem setPlan_power (p : Plan) (s : State) : (setPlan p s).power = s.power := rfl
@[simp] theorem setPlan_now (p : Plan) (s : State) : (setPlan p s).now = s.now := rfl
@[simp] theorem setPlan_draws (p : Plan) (s : State) : (setPlan p s).draws = s.draws := rfl
@[simp] theorem setPlan_domainCheck (p : Plan) (s : State) : (setPlan p s).domainCheck = s.domainCheck := rfl
@[simp] theorem setPlan_handed (p : Plan) (s : State) : (setPlan p s).handed = s.handed := rfl
@[simp] theorem setPlan_dist (p : Plan) (s : State) : (setPlan p s).dist = s.dist := rfl
@[simp] theorem setPlan_evalDue (p : Plan) (s : State) : (setPlan p s).evalDue = s.evalDue := rfl
@[simp] theorem setPlan_tariff (p : Plan) (s : State) : (setPlan p s).tariff = s.tariff := rfl
@[simp] theorem setPlan_trip (p : Plan) (s : State) : (setPlan p s).trip = s.trip := rfl
@[simp] theorem setPlan_resumeDue (p : Plan) (s : State) : (setPlan p s).resumeDue = s.resumeDue := rfl
@[simp] theorem setPlan_closed (p : Plan) (s : State) : (setPlan p s).closed = s.closed := rfl
@[simp] theorem setPlan_totals (p : Plan) (s : State) : (setPlan p s).totals = s.totals := rfl
@[simp] theorem setPlan_duty (p : Plan) (s : State) : (setPlan p s).duty = s.duty := rfl
@[simp] theorem setPlan_pool (p : Plan) (s : State) : (setPlan p s).pool = s.pool := rfl
@[simp] theorem setPlan_offers (p : Plan) (s : State) : (setPlan p s).offers = s.offers := rfl
@[simp] theorem setPlan_messages (p : Plan) (s : State) : (setPlan p s).messages = s.messages := rfl
@[simp] theorem setPlan_alarm (p : Plan) (s : State) : (setPlan p s).alarm = s.alarm := rfl
@[simp] theorem setPlan_radio (p : Plan) (s : State) : (setPlan p s).radio = { s.radio with plan := some p } := rfl
@[simp] theorem setPlan_meter (p : Plan) (s : State) : (setPlan p s).meter = s.meter := rfl
@[simp] theorem setPlan_terminal (p : Plan) (s : State) : (setPlan p s).terminal = s.terminal := rfl
@[simp] theorem setPlan_settings (p : Plan) (s : State) : (setPlan p s).settings = s.settings := rfl
@[simp] theorem setPlan_faults (p : Plan) (s : State) : (setPlan p s).faults = s.faults := rfl

/-! ### dropEntry -/

@[simp] theorem dropEntry_pending (n : Nat) (s : State) : (dropEntry n s).pending = s.pending := rfl
@[simp] theorem dropEntry_power (n : Nat) (s : State) : (dropEntry n s).power = s.power := rfl
@[simp] theorem dropEntry_now (n : Nat) (s : State) : (dropEntry n s).now = s.now := rfl
@[simp] theorem dropEntry_draws (n : Nat) (s : State) : (dropEntry n s).draws = s.draws := rfl
@[simp] theorem dropEntry_domainCheck (n : Nat) (s : State) : (dropEntry n s).domainCheck = s.domainCheck := rfl
@[simp] theorem dropEntry_handed (n : Nat) (s : State) : (dropEntry n s).handed = s.handed := rfl
@[simp] theorem dropEntry_dist (n : Nat) (s : State) : (dropEntry n s).dist = s.dist := rfl
@[simp] theorem dropEntry_evalDue (n : Nat) (s : State) : (dropEntry n s).evalDue = s.evalDue := rfl
@[simp] theorem dropEntry_tariff (n : Nat) (s : State) : (dropEntry n s).tariff = s.tariff := rfl
@[simp] theorem dropEntry_trip (n : Nat) (s : State) : (dropEntry n s).trip = s.trip := rfl
@[simp] theorem dropEntry_resumeDue (n : Nat) (s : State) : (dropEntry n s).resumeDue = s.resumeDue := rfl
@[simp] theorem dropEntry_closed (n : Nat) (s : State) : (dropEntry n s).closed = s.closed := rfl
@[simp] theorem dropEntry_totals (n : Nat) (s : State) : (dropEntry n s).totals = s.totals := rfl
@[simp] theorem dropEntry_duty (n : Nat) (s : State) : (dropEntry n s).duty = s.duty := rfl
@[simp] theorem dropEntry_pool (n : Nat) (s : State) : (dropEntry n s).pool = s.pool := rfl
@[simp] theorem dropEntry_offers (n : Nat) (s : State) : (dropEntry n s).offers = s.offers := rfl
@[simp] theorem dropEntry_messages (n : Nat) (s : State) : (dropEntry n s).messages = s.messages := rfl
@[simp] theorem dropEntry_alarm (n : Nat) (s : State) : (dropEntry n s).alarm = s.alarm := rfl
@[simp] theorem dropEntry_radio (n : Nat) (s : State) : (dropEntry n s).radio = { s.radio with queue := s.radio.queue.filter (fun e => decide (e.arrival ≠ n)) } := rfl
@[simp] theorem dropEntry_meter (n : Nat) (s : State) : (dropEntry n s).meter = s.meter := rfl
@[simp] theorem dropEntry_terminal (n : Nat) (s : State) : (dropEntry n s).terminal = s.terminal := rfl
@[simp] theorem dropEntry_settings (n : Nat) (s : State) : (dropEntry n s).settings = s.settings := rfl
@[simp] theorem dropEntry_faults (n : Nat) (s : State) : (dropEntry n s).faults = s.faults := rfl

/-! ### changeEntry -/

@[simp] theorem changeEntry_pending (n : Nat) (f : Entry → Entry) (s : State) : (changeEntry n f s).pending = s.pending := rfl
@[simp] theorem changeEntry_power (n : Nat) (f : Entry → Entry) (s : State) : (changeEntry n f s).power = s.power := rfl
@[simp] theorem changeEntry_now (n : Nat) (f : Entry → Entry) (s : State) : (changeEntry n f s).now = s.now := rfl
@[simp] theorem changeEntry_draws (n : Nat) (f : Entry → Entry) (s : State) : (changeEntry n f s).draws = s.draws := rfl
@[simp] theorem changeEntry_domainCheck (n : Nat) (f : Entry → Entry) (s : State) : (changeEntry n f s).domainCheck = s.domainCheck := rfl
@[simp] theorem changeEntry_handed (n : Nat) (f : Entry → Entry) (s : State) : (changeEntry n f s).handed = s.handed := rfl
@[simp] theorem changeEntry_dist (n : Nat) (f : Entry → Entry) (s : State) : (changeEntry n f s).dist = s.dist := rfl
@[simp] theorem changeEntry_evalDue (n : Nat) (f : Entry → Entry) (s : State) : (changeEntry n f s).evalDue = s.evalDue := rfl
@[simp] theorem changeEntry_tariff (n : Nat) (f : Entry → Entry) (s : State) : (changeEntry n f s).tariff = s.tariff := rfl
@[simp] theorem changeEntry_trip (n : Nat) (f : Entry → Entry) (s : State) : (changeEntry n f s).trip = s.trip := rfl
@[simp] theorem changeEntry_resumeDue (n : Nat) (f : Entry → Entry) (s : State) : (changeEntry n f s).resumeDue = s.resumeDue := rfl
@[simp] theorem changeEntry_closed (n : Nat) (f : Entry → Entry) (s : State) : (changeEntry n f s).closed = s.closed := rfl
@[simp] theorem changeEntry_totals (n : Nat) (f : Entry → Entry) (s : State) : (changeEntry n f s).totals = s.totals := rfl
@[simp] theorem changeEntry_duty (n : Nat) (f : Entry → Entry) (s : State) : (changeEntry n f s).duty = s.duty := rfl
@[simp] theorem changeEntry_pool (n : Nat) (f : Entry → Entry) (s : State) : (changeEntry n f s).pool = s.pool := rfl
@[simp] theorem changeEntry_offers (n : Nat) (f : Entry → Entry) (s : State) : (changeEntry n f s).offers = s.offers := rfl
@[simp] theorem changeEntry_messages (n : Nat) (f : Entry → Entry) (s : State) : (changeEntry n f s).messages = s.messages := rfl
@[simp] theorem changeEntry_alarm (n : Nat) (f : Entry → Entry) (s : State) : (changeEntry n f s).alarm = s.alarm := rfl
@[simp] theorem changeEntry_radio (n : Nat) (f : Entry → Entry) (s : State) : (changeEntry n f s).radio = { s.radio with queue := s.radio.queue.map (fun e => if e.arrival = n then f e else e) } := rfl
@[simp] theorem changeEntry_meter (n : Nat) (f : Entry → Entry) (s : State) : (changeEntry n f s).meter = s.meter := rfl
@[simp] theorem changeEntry_terminal (n : Nat) (f : Entry → Entry) (s : State) : (changeEntry n f s).terminal = s.terminal := rfl
@[simp] theorem changeEntry_settings (n : Nat) (f : Entry → Entry) (s : State) : (changeEntry n f s).settings = s.settings := rfl
@[simp] theorem changeEntry_faults (n : Nat) (f : Entry → Entry) (s : State) : (changeEntry n f s).faults = s.faults := rfl

/-! ### dropOffer -/

@[simp] theorem dropOffer_pending (n : Nat) (s : State) : (dropOffer n s).pending = s.pending := rfl
@[simp] theorem dropOffer_power (n : Nat) (s : State) : (dropOffer n s).power = s.power := rfl
@[simp] theorem dropOffer_now (n : Nat) (s : State) : (dropOffer n s).now = s.now := rfl
@[simp] theorem dropOffer_draws (n : Nat) (s : State) : (dropOffer n s).draws = s.draws := rfl
@[simp] theorem dropOffer_domainCheck (n : Nat) (s : State) : (dropOffer n s).domainCheck = s.domainCheck := rfl
@[simp] theorem dropOffer_handed (n : Nat) (s : State) : (dropOffer n s).handed = s.handed := rfl
@[simp] theorem dropOffer_dist (n : Nat) (s : State) : (dropOffer n s).dist = s.dist := rfl
@[simp] theorem dropOffer_evalDue (n : Nat) (s : State) : (dropOffer n s).evalDue = s.evalDue := rfl
@[simp] theorem dropOffer_tariff (n : Nat) (s : State) : (dropOffer n s).tariff = s.tariff := rfl
@[simp] theorem dropOffer_trip (n : Nat) (s : State) : (dropOffer n s).trip = s.trip := rfl
@[simp] theorem dropOffer_resumeDue (n : Nat) (s : State) : (dropOffer n s).resumeDue = s.resumeDue := rfl
@[simp] theorem dropOffer_closed (n : Nat) (s : State) : (dropOffer n s).closed = s.closed := rfl
@[simp] theorem dropOffer_totals (n : Nat) (s : State) : (dropOffer n s).totals = s.totals := rfl
@[simp] theorem dropOffer_duty (n : Nat) (s : State) : (dropOffer n s).duty = s.duty := rfl
@[simp] theorem dropOffer_pool (n : Nat) (s : State) : (dropOffer n s).pool = s.pool := rfl
@[simp] theorem dropOffer_offers (n : Nat) (s : State) : (dropOffer n s).offers = { s.offers with entries := s.offers.entries.filter (fun o => decide (o.number ≠ n)) } := rfl
@[simp] theorem dropOffer_messages (n : Nat) (s : State) : (dropOffer n s).messages = s.messages := rfl
@[simp] theorem dropOffer_alarm (n : Nat) (s : State) : (dropOffer n s).alarm = s.alarm := rfl
@[simp] theorem dropOffer_radio (n : Nat) (s : State) : (dropOffer n s).radio = s.radio := rfl
@[simp] theorem dropOffer_meter (n : Nat) (s : State) : (dropOffer n s).meter = s.meter := rfl
@[simp] theorem dropOffer_terminal (n : Nat) (s : State) : (dropOffer n s).terminal = s.terminal := rfl
@[simp] theorem dropOffer_settings (n : Nat) (s : State) : (dropOffer n s).settings = s.settings := rfl
@[simp] theorem dropOffer_faults (n : Nat) (s : State) : (dropOffer n s).faults = s.faults := rfl

/-! ### setOffer -/

@[simp] theorem setOffer_pending (n : Nat) (st : OfferState) (s : State) : (setOffer n st s).pending = s.pending := rfl
@[simp] theorem setOffer_power (n : Nat) (st : OfferState) (s : State) : (setOffer n st s).power = s.power := rfl
@[simp] theorem setOffer_now (n : Nat) (st : OfferState) (s : State) : (setOffer n st s).now = s.now := rfl
@[simp] theorem setOffer_draws (n : Nat) (st : OfferState) (s : State) : (setOffer n st s).draws = s.draws := rfl
@[simp] theorem setOffer_domainCheck (n : Nat) (st : OfferState) (s : State) : (setOffer n st s).domainCheck = s.domainCheck := rfl
@[simp] theorem setOffer_handed (n : Nat) (st : OfferState) (s : State) : (setOffer n st s).handed = s.handed := rfl
@[simp] theorem setOffer_dist (n : Nat) (st : OfferState) (s : State) : (setOffer n st s).dist = s.dist := rfl
@[simp] theorem setOffer_evalDue (n : Nat) (st : OfferState) (s : State) : (setOffer n st s).evalDue = s.evalDue := rfl
@[simp] theorem setOffer_tariff (n : Nat) (st : OfferState) (s : State) : (setOffer n st s).tariff = s.tariff := rfl
@[simp] theorem setOffer_trip (n : Nat) (st : OfferState) (s : State) : (setOffer n st s).trip = s.trip := rfl
@[simp] theorem setOffer_resumeDue (n : Nat) (st : OfferState) (s : State) : (setOffer n st s).resumeDue = s.resumeDue := rfl
@[simp] theorem setOffer_closed (n : Nat) (st : OfferState) (s : State) : (setOffer n st s).closed = s.closed := rfl
@[simp] theorem setOffer_totals (n : Nat) (st : OfferState) (s : State) : (setOffer n st s).totals = s.totals := rfl
@[simp] theorem setOffer_duty (n : Nat) (st : OfferState) (s : State) : (setOffer n st s).duty = s.duty := rfl
@[simp] theorem setOffer_pool (n : Nat) (st : OfferState) (s : State) : (setOffer n st s).pool = s.pool := rfl
@[simp] theorem setOffer_offers (n : Nat) (st : OfferState) (s : State) : (setOffer n st s).offers = { s.offers with entries := setStateOf n st s.offers.entries } := rfl
@[simp] theorem setOffer_messages (n : Nat) (st : OfferState) (s : State) : (setOffer n st s).messages = s.messages := rfl
@[simp] theorem setOffer_alarm (n : Nat) (st : OfferState) (s : State) : (setOffer n st s).alarm = s.alarm := rfl
@[simp] theorem setOffer_radio (n : Nat) (st : OfferState) (s : State) : (setOffer n st s).radio = s.radio := rfl
@[simp] theorem setOffer_meter (n : Nat) (st : OfferState) (s : State) : (setOffer n st s).meter = s.meter := rfl
@[simp] theorem setOffer_terminal (n : Nat) (st : OfferState) (s : State) : (setOffer n st s).terminal = s.terminal.place noticeOffer := rfl
@[simp] theorem setOffer_settings (n : Nat) (st : OfferState) (s : State) : (setOffer n st s).settings = s.settings := rfl
@[simp] theorem setOffer_faults (n : Nat) (st : OfferState) (s : State) : (setOffer n st s).faults = s.faults := rfl

/-! ### removeAccept -/

@[simp] theorem removeAccept_pending (s : State) : (removeAccept s).pending = s.pending := rfl
@[simp] theorem removeAccept_power (s : State) : (removeAccept s).power = s.power := rfl
@[simp] theorem removeAccept_now (s : State) : (removeAccept s).now = s.now := rfl
@[simp] theorem removeAccept_draws (s : State) : (removeAccept s).draws = s.draws := rfl
@[simp] theorem removeAccept_domainCheck (s : State) : (removeAccept s).domainCheck = s.domainCheck := rfl
@[simp] theorem removeAccept_handed (s : State) : (removeAccept s).handed = s.handed := rfl
@[simp] theorem removeAccept_dist (s : State) : (removeAccept s).dist = s.dist := rfl
@[simp] theorem removeAccept_evalDue (s : State) : (removeAccept s).evalDue = s.evalDue := rfl
@[simp] theorem removeAccept_tariff (s : State) : (removeAccept s).tariff = s.tariff := rfl
@[simp] theorem removeAccept_trip (s : State) : (removeAccept s).trip = s.trip := rfl
@[simp] theorem removeAccept_resumeDue (s : State) : (removeAccept s).resumeDue = s.resumeDue := rfl
@[simp] theorem removeAccept_closed (s : State) : (removeAccept s).closed = s.closed := rfl
@[simp] theorem removeAccept_totals (s : State) : (removeAccept s).totals = s.totals := rfl
@[simp] theorem removeAccept_duty (s : State) : (removeAccept s).duty = s.duty := rfl
@[simp] theorem removeAccept_pool (s : State) : (removeAccept s).pool = s.pool := rfl
@[simp] theorem removeAccept_offers (s : State) : (removeAccept s).offers = s.offers := rfl
@[simp] theorem removeAccept_messages (s : State) : (removeAccept s).messages = s.messages := rfl
@[simp] theorem removeAccept_alarm (s : State) : (removeAccept s).alarm = s.alarm := rfl
@[simp] theorem removeAccept_radio (s : State) : (removeAccept s).radio = s.radio.removeOwned .accept := rfl
@[simp] theorem removeAccept_meter (s : State) : (removeAccept s).meter = s.meter := rfl
@[simp] theorem removeAccept_terminal (s : State) : (removeAccept s).terminal = s.terminal := rfl
@[simp] theorem removeAccept_settings (s : State) : (removeAccept s).settings = s.settings := rfl
@[simp] theorem removeAccept_faults (s : State) : (removeAccept s).faults = s.faults := rfl

/-! ### declineOffer -/

@[simp] theorem declineOffer_pending (n : Nat) (r : DeclineReason) (s : State) : (declineOffer n r s).pending = s.pending := rfl
@[simp] theorem declineOffer_power (n : Nat) (r : DeclineReason) (s : State) : (declineOffer n r s).power = s.power := rfl
@[simp] theorem declineOffer_now (n : Nat) (r : DeclineReason) (s : State) : (declineOffer n r s).now = s.now := rfl
@[simp] theorem declineOffer_draws (n : Nat) (r : DeclineReason) (s : State) : (declineOffer n r s).draws = s.draws := rfl
@[simp] theorem declineOffer_domainCheck (n : Nat) (r : DeclineReason) (s : State) : (declineOffer n r s).domainCheck = s.domainCheck := rfl
@[simp] theorem declineOffer_handed (n : Nat) (r : DeclineReason) (s : State) : (declineOffer n r s).handed = s.handed := rfl
@[simp] theorem declineOffer_dist (n : Nat) (r : DeclineReason) (s : State) : (declineOffer n r s).dist = s.dist := rfl
@[simp] theorem declineOffer_evalDue (n : Nat) (r : DeclineReason) (s : State) : (declineOffer n r s).evalDue = s.evalDue := rfl
@[simp] theorem declineOffer_tariff (n : Nat) (r : DeclineReason) (s : State) : (declineOffer n r s).tariff = s.tariff := rfl
@[simp] theorem declineOffer_trip (n : Nat) (r : DeclineReason) (s : State) : (declineOffer n r s).trip = s.trip := rfl
@[simp] theorem declineOffer_resumeDue (n : Nat) (r : DeclineReason) (s : State) : (declineOffer n r s).resumeDue = s.resumeDue := rfl
@[simp] theorem declineOffer_closed (n : Nat) (r : DeclineReason) (s : State) : (declineOffer n r s).closed = s.closed := rfl
@[simp] theorem declineOffer_totals (n : Nat) (r : DeclineReason) (s : State) : (declineOffer n r s).totals = s.totals := rfl
@[simp] theorem declineOffer_duty (n : Nat) (r : DeclineReason) (s : State) : (declineOffer n r s).duty = s.duty := rfl
@[simp] theorem declineOffer_pool (n : Nat) (r : DeclineReason) (s : State) : (declineOffer n r s).pool = s.pool := rfl
@[simp] theorem declineOffer_offers (n : Nat) (r : DeclineReason) (s : State) : (declineOffer n r s).offers = s.offers := rfl
@[simp] theorem declineOffer_messages (n : Nat) (r : DeclineReason) (s : State) : (declineOffer n r s).messages = s.messages := rfl
@[simp] theorem declineOffer_alarm (n : Nat) (r : DeclineReason) (s : State) : (declineOffer n r s).alarm = s.alarm := rfl
@[simp] theorem declineOffer_radio (n : Nat) (r : DeclineReason) (s : State) : (declineOffer n r s).radio = s.radio.queueDecline n r := rfl
@[simp] theorem declineOffer_meter (n : Nat) (r : DeclineReason) (s : State) : (declineOffer n r s).meter = s.meter := rfl
@[simp] theorem declineOffer_terminal (n : Nat) (r : DeclineReason) (s : State) : (declineOffer n r s).terminal = s.terminal := rfl
@[simp] theorem declineOffer_settings (n : Nat) (r : DeclineReason) (s : State) : (declineOffer n r s).settings = s.settings := rfl
@[simp] theorem declineOffer_faults (n : Nat) (r : DeclineReason) (s : State) : (declineOffer n r s).faults = s.faults := rfl

/-! ### releaseOffer -/

@[simp] theorem releaseOffer_pending (n : Nat) (s : State) : (releaseOffer n s).pending = s.pending := rfl
@[simp] theorem releaseOffer_power (n : Nat) (s : State) : (releaseOffer n s).power = s.power := rfl
@[simp] theorem releaseOffer_now (n : Nat) (s : State) : (releaseOffer n s).now = s.now := rfl
@[simp] theorem releaseOffer_draws (n : Nat) (s : State) : (releaseOffer n s).draws = s.draws := rfl
@[simp] theorem releaseOffer_domainCheck (n : Nat) (s : State) : (releaseOffer n s).domainCheck = s.domainCheck := rfl
@[simp] theorem releaseOffer_handed (n : Nat) (s : State) : (releaseOffer n s).handed = s.handed := rfl
@[simp] theorem releaseOffer_dist (n : Nat) (s : State) : (releaseOffer n s).dist = s.dist := rfl
@[simp] theorem releaseOffer_evalDue (n : Nat) (s : State) : (releaseOffer n s).evalDue = s.evalDue := rfl
@[simp] theorem releaseOffer_tariff (n : Nat) (s : State) : (releaseOffer n s).tariff = s.tariff := rfl
@[simp] theorem releaseOffer_trip (n : Nat) (s : State) : (releaseOffer n s).trip = s.trip := rfl
@[simp] theorem releaseOffer_resumeDue (n : Nat) (s : State) : (releaseOffer n s).resumeDue = s.resumeDue := rfl
@[simp] theorem releaseOffer_closed (n : Nat) (s : State) : (releaseOffer n s).closed = s.closed := rfl
@[simp] theorem releaseOffer_totals (n : Nat) (s : State) : (releaseOffer n s).totals = s.totals := rfl
@[simp] theorem releaseOffer_duty (n : Nat) (s : State) : (releaseOffer n s).duty = s.duty := rfl
@[simp] theorem releaseOffer_pool (n : Nat) (s : State) : (releaseOffer n s).pool = s.pool := rfl
@[simp] theorem releaseOffer_offers (n : Nat) (s : State) : (releaseOffer n s).offers = s.offers := rfl
@[simp] theorem releaseOffer_messages (n : Nat) (s : State) : (releaseOffer n s).messages = s.messages := rfl
@[simp] theorem releaseOffer_alarm (n : Nat) (s : State) : (releaseOffer n s).alarm = s.alarm := rfl
@[simp] theorem releaseOffer_radio (n : Nat) (s : State) : (releaseOffer n s).radio = s.radio.queueRelease n s.tariff.clock := rfl
@[simp] theorem releaseOffer_meter (n : Nat) (s : State) : (releaseOffer n s).meter = s.meter := rfl
@[simp] theorem releaseOffer_terminal (n : Nat) (s : State) : (releaseOffer n s).terminal = s.terminal := rfl
@[simp] theorem releaseOffer_settings (n : Nat) (s : State) : (releaseOffer n s).settings = s.settings := rfl
@[simp] theorem releaseOffer_faults (n : Nat) (s : State) : (releaseOffer n s).faults = s.faults := rfl

/-! ### changeInbound -/

@[simp] theorem changeInbound_pending (n : Nat) (f : Inbound → Inbound) (s : State) : (changeInbound n f s).pending = s.pending := rfl
@[simp] theorem changeInbound_power (n : Nat) (f : Inbound → Inbound) (s : State) : (changeInbound n f s).power = s.power := rfl
@[simp] theorem changeInbound_now (n : Nat) (f : Inbound → Inbound) (s : State) : (changeInbound n f s).now = s.now := rfl
@[simp] theorem changeInbound_draws (n : Nat) (f : Inbound → Inbound) (s : State) : (changeInbound n f s).draws = s.draws := rfl
@[simp] theorem changeInbound_domainCheck (n : Nat) (f : Inbound → Inbound) (s : State) : (changeInbound n f s).domainCheck = s.domainCheck := rfl
@[simp] theorem changeInbound_handed (n : Nat) (f : Inbound → Inbound) (s : State) : (changeInbound n f s).handed = s.handed := rfl
@[simp] theorem changeInbound_dist (n : Nat) (f : Inbound → Inbound) (s : State) : (changeInbound n f s).dist = s.dist := rfl
@[simp] theorem changeInbound_evalDue (n : Nat) (f : Inbound → Inbound) (s : State) : (changeInbound n f s).evalDue = s.evalDue := rfl
@[simp] theorem changeInbound_tariff (n : Nat) (f : Inbound → Inbound) (s : State) : (changeInbound n f s).tariff = s.tariff := rfl
@[simp] theorem changeInbound_trip (n : Nat) (f : Inbound → Inbound) (s : State) : (changeInbound n f s).trip = s.trip := rfl
@[simp] theorem changeInbound_resumeDue (n : Nat) (f : Inbound → Inbound) (s : State) : (changeInbound n f s).resumeDue = s.resumeDue := rfl
@[simp] theorem changeInbound_closed (n : Nat) (f : Inbound → Inbound) (s : State) : (changeInbound n f s).closed = s.closed := rfl
@[simp] theorem changeInbound_totals (n : Nat) (f : Inbound → Inbound) (s : State) : (changeInbound n f s).totals = s.totals := rfl
@[simp] theorem changeInbound_duty (n : Nat) (f : Inbound → Inbound) (s : State) : (changeInbound n f s).duty = s.duty := rfl
@[simp] theorem changeInbound_pool (n : Nat) (f : Inbound → Inbound) (s : State) : (changeInbound n f s).pool = s.pool := rfl
@[simp] theorem changeInbound_offers (n : Nat) (f : Inbound → Inbound) (s : State) : (changeInbound n f s).offers = s.offers := rfl
@[simp] theorem changeInbound_messages (n : Nat) (f : Inbound → Inbound) (s : State) : (changeInbound n f s).messages = { s.messages with inbound := s.messages.inbound.map (fun m => if m.number = n then f m else m) } := rfl
@[simp] theorem changeInbound_alarm (n : Nat) (f : Inbound → Inbound) (s : State) : (changeInbound n f s).alarm = s.alarm := rfl
@[simp] theorem changeInbound_radio (n : Nat) (f : Inbound → Inbound) (s : State) : (changeInbound n f s).radio = s.radio := rfl
@[simp] theorem changeInbound_meter (n : Nat) (f : Inbound → Inbound) (s : State) : (changeInbound n f s).meter = s.meter := rfl
@[simp] theorem changeInbound_terminal (n : Nat) (f : Inbound → Inbound) (s : State) : (changeInbound n f s).terminal = s.terminal := rfl
@[simp] theorem changeInbound_settings (n : Nat) (f : Inbound → Inbound) (s : State) : (changeInbound n f s).settings = s.settings := rfl
@[simp] theorem changeInbound_faults (n : Nat) (f : Inbound → Inbound) (s : State) : (changeInbound n f s).faults = s.faults := rfl

/-! ### receipt -/

@[simp] theorem receipt_pending (n : Nat) (st : ReceiptStatus) (s : State) : (receipt n st s).pending = s.pending := rfl
@[simp] theorem receipt_power (n : Nat) (st : ReceiptStatus) (s : State) : (receipt n st s).power = s.power := rfl
@[simp] theorem receipt_now (n : Nat) (st : ReceiptStatus) (s : State) : (receipt n st s).now = s.now := rfl
@[simp] theorem receipt_draws (n : Nat) (st : ReceiptStatus) (s : State) : (receipt n st s).draws = s.draws := rfl
@[simp] theorem receipt_domainCheck (n : Nat) (st : ReceiptStatus) (s : State) : (receipt n st s).domainCheck = s.domainCheck := rfl
@[simp] theorem receipt_handed (n : Nat) (st : ReceiptStatus) (s : State) : (receipt n st s).handed = s.handed := rfl
@[simp] theorem receipt_dist (n : Nat) (st : ReceiptStatus) (s : State) : (receipt n st s).dist = s.dist := rfl
@[simp] theorem receipt_evalDue (n : Nat) (st : ReceiptStatus) (s : State) : (receipt n st s).evalDue = s.evalDue := rfl
@[simp] theorem receipt_tariff (n : Nat) (st : ReceiptStatus) (s : State) : (receipt n st s).tariff = s.tariff := rfl
@[simp] theorem receipt_trip (n : Nat) (st : ReceiptStatus) (s : State) : (receipt n st s).trip = s.trip := rfl
@[simp] theorem receipt_resumeDue (n : Nat) (st : ReceiptStatus) (s : State) : (receipt n st s).resumeDue = s.resumeDue := rfl
@[simp] theorem receipt_closed (n : Nat) (st : ReceiptStatus) (s : State) : (receipt n st s).closed = s.closed := rfl
@[simp] theorem receipt_totals (n : Nat) (st : ReceiptStatus) (s : State) : (receipt n st s).totals = s.totals := rfl
@[simp] theorem receipt_duty (n : Nat) (st : ReceiptStatus) (s : State) : (receipt n st s).duty = s.duty := rfl
@[simp] theorem receipt_pool (n : Nat) (st : ReceiptStatus) (s : State) : (receipt n st s).pool = s.pool := rfl
@[simp] theorem receipt_offers (n : Nat) (st : ReceiptStatus) (s : State) : (receipt n st s).offers = s.offers := rfl
@[simp] theorem receipt_messages (n : Nat) (st : ReceiptStatus) (s : State) : (receipt n st s).messages = s.messages := rfl
@[simp] theorem receipt_alarm (n : Nat) (st : ReceiptStatus) (s : State) : (receipt n st s).alarm = s.alarm := rfl
@[simp] theorem receipt_radio (n : Nat) (st : ReceiptStatus) (s : State) : (receipt n st s).radio = s.radio.queueReceipt n st := rfl
@[simp] theorem receipt_meter (n : Nat) (st : ReceiptStatus) (s : State) : (receipt n st s).meter = s.meter := rfl
@[simp] theorem receipt_terminal (n : Nat) (st : ReceiptStatus) (s : State) : (receipt n st s).terminal = s.terminal := rfl
@[simp] theorem receipt_settings (n : Nat) (st : ReceiptStatus) (s : State) : (receipt n st s).settings = s.settings := rfl
@[simp] theorem receipt_faults (n : Nat) (st : ReceiptStatus) (s : State) : (receipt n st s).faults = s.faults := rfl

end Sys2Proof.Machine
end

