-- ==== Sys2Proof/Laws/Domain.lean ====
section
/-! SUPPORT. The check value of the Retained Domain (R178): what it depends on, and when it agrees with the contents. -/

namespace Sys2Proof.Machine

open Sys2Proof

/-- The check value depends on the retained items alone: of the calendar clock on its set flag, not on its day and time (R178). -/
theorem computeDomainCheck_congr {s t : State} (ha : t.tariff.active = s.tariff.active) (hp : t.tariff.pending = s.tariff.pending)
    (hc : t.tariff.clock.isSet = s.tariff.clock.isSet) (hm : t.tariff.clockUnsetMark = s.tariff.clockUnsetMark)
    (hx : t.settings = s.settings) (ht : t.trip = s.trip) (hl : t.closed = s.closed) (hn : t.totals = s.totals)
    (hr : t.alarm.record = s.alarm.record) (hf : t.faults = s.faults) : computeDomainCheck t = computeDomainCheck s := by
  unfold computeDomainCheck domainWords
  rw [ha, hp, hc, hm, hx, ht, hl, hn, hr, hf]

/-- A change of no retained item leaves the check value that the contents give. -/
theorem computeDomainCheck_frame {fs : List Field} {s t : State} (h : changesOnly fs s t)
    (hf : ∀ f ∈ fs, f ∉ [Field.tariff, .settings, .trip, .closed, .totals, .alarm, .faults]) : computeDomainCheck t = computeDomainCheck s := by
  have g : ∀ f ∈ [Field.tariff, .settings, .trip, .closed, .totals, .alarm, .faults], f.same s t := fun f m => h f (fun n => hf f n m)
  have h1 : t.tariff = s.tariff := g .tariff (by decide)
  have h2 : t.settings = s.settings := g .settings (by decide)
  have h3 : t.trip = s.trip := g .trip (by decide)
  have h4 : t.closed = s.closed := g .closed (by decide)
  have h5 : t.totals = s.totals := g .totals (by decide)
  have h6 : t.alarm = s.alarm := g .alarm (by decide)
  have h7 : t.faults = s.faults := g .faults (by decide)
  exact computeDomainCheck_congr (by rw [h1]) (by rw [h1]) (by rw [h1]) (by rw [h1]) h2 h3 h4 h5 (by rw [h6]) h7

@[simp] theorem computeDomainCheck_sealDomain (s : State) : computeDomainCheck (sealDomain s) = computeDomainCheck s := rfl

/-- After the update the check value agrees with the contents. -/
@[simp] theorem domainAgrees_sealDomain (s : State) : domainAgrees (sealDomain s) = true := by simp [domainAgrees]

@[simp] theorem sealDomain_sealDomain (s : State) : sealDomain (sealDomain s) = sealDomain s := rfl

/-- After the update the two values are one, said of the values themselves. -/
theorem domainCheck_sealDomain (s : State) : (sealDomain s).domainCheck = computeDomainCheck (sealDomain s) := rfl

/-- Where the check value agrees already, the update changes nothing. -/
theorem sealDomain_of_agrees {s : State} (h : domainAgrees s = true) : sealDomain s = s := by
  have e : s.domainCheck = computeDomainCheck s := of_decide_eq_true h
  simp only [sealDomain, ← e]

/-- The update changes no part of the state that a frame speaks of. -/
theorem sealDomain_frame (s : State) : changesOnly [] s (sealDomain s) := by
  intro f _
  cases f <;> rfl

/-- Damage that the check value does not show leaves the comparison of a start as it would have come out (log 6). -/
theorem domainAgrees_hideDamage (s t : State) : domainAgrees (hideDamage s t) = domainAgrees s := by
  have e : computeDomainCheck (hideDamage s t) = computeDomainCheck t := rfl
  have d : (hideDamage s t).domainCheck = s.domainCheck ^^^ computeDomainCheck s ^^^ computeDomainCheck t := rfl
  unfold domainAgrees
  rw [e, d]
  generalize computeDomainCheck s = a
  generalize computeDomainCheck t = b
  have key : (s.domainCheck ^^^ a ^^^ b = b) ↔ s.domainCheck = a := by
    constructor
    · intro h
      have h2 := congrArg (· ^^^ b) h
      simp only [BitVec.xor_assoc, BitVec.xor_self, BitVec.xor_zero] at h2
      have h3 := congrArg (· ^^^ a) h2
      simpa [BitVec.xor_assoc] using h3
    · intro h
      simp [h]
  simp [key]

/-- Going down changes no retained item (R178): the check value computed stays what it was. -/
@[simp] theorem computeDomainCheck_goDown (s : State) : computeDomainCheck (goDown s) = computeDomainCheck s := rfl

/-- Going down leaves the stored check value as it was. -/
@[simp] theorem goDown_domainCheck (s : State) : (goDown s).domainCheck = s.domainCheck := rfl

/-- A domain that agreed agrees still once the part is down. -/
@[simp] theorem domainAgrees_goDown (s : State) : domainAgrees (goDown s) = domainAgrees s := rfl

/-- A domain that was lost does not agree (R178). -/
theorem domainAgrees_lost (s : State) : domainAgrees (domainFate .lost s) = false := by
  have e : computeDomainCheck (domainFate .lost s) = computeDomainCheck s := rfl
  have d : (domainFate .lost s).domainCheck = computeDomainCheck s ^^^ 1 := rfl
  unfold domainAgrees
  rw [e, d]
  generalize computeDomainCheck s = a
  refine decide_eq_false (fun h => ?_)
  have h2 := congrArg (a ^^^ ·) h
  simp only [← BitVec.xor_assoc, BitVec.xor_self, BitVec.zero_xor] at h2
  exact absurd h2 (by decide)

/-! ## The check value of the cold contents (R178), computed nine numbers at a time -/

/-- The CRC register after some numbers of four bytes each. -/
def crcWords (r : Check) (ws : List Nat) : Check := (ws.flatMap (natBytes 4)).foldl crcByte r

theorem crcWords_append (r : Check) (a b : List Nat) : crcWords r (a ++ b) = crcWords (crcWords r a) b := by
  simp [crcWords, List.foldl_append]

theorem crcWords_cold1 : crcWords 0xFFFF [0, 0, 0, 0, 0, 0, 0, 4800, 30] = 0xD0B6 := by decide +kernel
theorem crcWords_cold2 : crcWords 0xD0B6 [120, 0, 3, 4, 20, 1, 4, 60, 3] = 0x6F01 := by decide +kernel
theorem crcWords_cold3 : crcWords 0x6F01 [3, 0, 0, 0, 0, 0, 0, 0, 0] = 0xEC11 := by decide +kernel
theorem crcWords_cold4 : crcWords 0xEC11 [0, 0, 0, 0, 0, 0, 0, 0, 0] = 0xF034 := by decide +kernel
theorem crcWords_cold5 : crcWords 0xF034 [0, 1, 0, 0, 1, 0, 0, 0, 0] = 0x97A3 := by decide +kernel

/-- The check value that State.reset holds is the one of the cold contents (R178). -/
theorem domainAgrees_reset : domainAgrees State.reset = true := by
  have w : domainWords State.reset = [0, 0, 0, 0, 0, 0, 0, 4800, 30] ++ [120, 0, 3, 4, 20, 1, 4, 60, 3] ++ [3, 0, 0, 0, 0, 0, 0, 0, 0] ++
      [0, 0, 0, 0, 0, 0, 0, 0, 0] ++ [0, 1, 0, 0, 1, 0, 0, 0, 0] := rfl
  have e : computeDomainCheck State.reset = crcWords 0xFFFF (domainWords State.reset) := rfl
  rw [domainAgrees, e, w, crcWords_append, crcWords_append, crcWords_append, crcWords_append, crcWords_cold1, crcWords_cold2, crcWords_cold3,
    crcWords_cold4, crcWords_cold5]
  rfl

end Sys2Proof.Machine
end

