-- ==== Sys2Proof/Laws/Frames.lean ====
section
/-! SUPPORT. What each shared operation can change: one frame lemma for each, which later proofs cite instead of unfolding it. -/

namespace Sys2Proof.Machine

open Sys2Proof

/-! ## Frames compose -/

theorem changesOnly_refl (fs : List Field) (s : State) : changesOnly fs s s := by
  intro f _
  cases f <;> rfl

theorem changesOnly_trans {fs : List Field} {s t u : State} (h1 : changesOnly fs s t) (h2 : changesOnly fs t u) : changesOnly fs s u := by
  intro f hf
  have a := h1 f hf
  have b := h2 f hf
  cases f <;> exact b.trans a

theorem changesOnly_mono {fs gs : List Field} {s t : State} (h : changesOnly fs s t) (sub : ∀ f ∈ fs, f ∈ gs) : changesOnly gs s t :=
  fun f hf => h f (fun hm => hf (sub f hm))

theorem changesOnly_ite {fs : List Field} {s t u : State} {c : Prop} [Decidable c] (h1 : changesOnly fs s t) (h2 : changesOnly fs s u) :
    changesOnly fs s (if c then t else u) := by
  split
  · exact h1
  · exact h2

theorem changesOnly_foldl {α : Type} {fs : List Field} {f : State → α → State} (h : ∀ s a, changesOnly fs s (f s a)) (l : List α) (s : State) :
    changesOnly fs s (l.foldl f s) := by
  induction l generalizing s with
  | nil => exact changesOnly_refl fs s
  | cons a l ih => exact changesOnly_trans (h s a) (ih (f s a))

/-! ## The time base, notices and faults -/

theorem reach_frame (due : Nat) (s : State) : changesOnly [.now] s (reach due s) := by
  intro f hf
  cases f <;> first | rfl | exact absurd (by decide) hf

theorem noticeMeter_frame (k : BitVec 8) (s : State) : changesOnly [.meter] s (noticeMeter k s) := by
  intro f hf
  cases f <;> first | rfl | exact absurd (by decide) hf

theorem noticeTerminal_frame (k : BitVec 8) (s : State) : changesOnly [.terminal] s (noticeTerminal k s) := by
  intro f hf
  cases f <;> first | rfl | exact absurd (by decide) hf

theorem noticeEmergency_frame (s : State) : changesOnly [.meter, .terminal] s (noticeEmergency s) := by
  intro f hf
  cases f <;> first | rfl | exact absurd (by decide) hf

theorem placeFault_frame (k : FaultKind) (a : Bool) (s : State) : changesOnly [.faults, .meter] s (placeFault k a s) := by
  intro f hf
  cases f <;> first | rfl | exact absurd (by decide) hf

/-! ## Ports -/

theorem setMeterPort_frame (v : PortState) (s : State) : changesOnly [.meter] s (setPort .meter v s) := by
  intro f hf
  cases f <;> first | rfl | exact absurd (by decide) hf

theorem setTerminalPort_frame (v : PortState) (s : State) : changesOnly [.terminal] s (setPort .terminal v s) := by
  intro f hf
  cases f <;> first | rfl | exact absurd (by decide) hf

theorem setPort_frame (p : Port) (v : PortState) (s : State) : changesOnly [.meter, .terminal] s (setPort p v s) := by
  cases p
  · exact changesOnly_mono (setMeterPort_frame v s) (by decide)
  · exact changesOnly_mono (setTerminalPort_frame v s) (by decide)

theorem setBuffer_frame (p : Port) (b : ReplyBuffer) (s : State) : changesOnly [.meter, .terminal] s (setBuffer p b s) := setPort_frame p _ s

theorem setAnswer_frame (p : Port) (a : List Byte) (s : State) : changesOnly [.meter, .terminal] s (setAnswer p a s) := setPort_frame p _ s

/-! ## The Uplink Queue, STATUS and the re-check -/

theorem queueWaiting_frame (s : State) : changesOnly [.radio, .messages] s (queueWaiting s) := by
  unfold queueWaiting
  split
  · exact changesOnly_refl _ s
  · split
    · intro f hf
      cases f <;> first | rfl | exact absurd (by decide) hf
    · exact changesOnly_refl _ s

theorem refreshStatus_frame (r : StatusReason) (s : State) : changesOnly [.radio, .duty] s (refreshStatus r s) := by
  intro f hf
  cases f <;> first | rfl | exact absurd (by decide) hf

theorem recheck_frame (s : State) : changesOnly [.offers, .radio, .terminal] s (recheck s) := by
  intro f hf
  cases f <;> first | rfl | exact absurd (by decide) hf

theorem dutyChanged_frame (r : StatusReason) (s : State) : changesOnly [.radio, .duty, .offers, .terminal] s (dutyChanged r s) := by
  intro f hf
  cases f <;> first | rfl | exact absurd (by decide) hf

theorem terminalSign_frame (s : State) : changesOnly [.radio, .duty, .offers, .terminal] s (terminalSign s) := by
  unfold terminalSign
  split
  · split <;> (intro f hf; cases f <;> first | rfl | exact absurd (by decide) hf)
  · exact changesOnly_refl _ s

theorem signOf_frame (p : Port) (s : State) : changesOnly [.radio, .duty, .offers, .terminal] s (signOf p s) := by
  cases p
  · exact changesOnly_refl _ s
  · exact terminalSign_frame s

theorem driveIdle_frame (p : Port) (s : State) : changesOnly [.meter, .terminal] s (driveIdle p s) := setAnswer_frame p _ s

theorem frameReceived_frame (p : Port) (s : State) : changesOnly [.radio, .duty, .offers, .meter, .terminal] s (frameReceived p s) :=
  changesOnly_trans (changesOnly_mono (driveIdle_frame p s) (by decide)) (changesOnly_mono (signOf_frame p _) (by decide))

/-- A frame received on a port changes what a request of that port may (R77, R165). -/
theorem frameReceived_port (p : Port) (s : State) : changesOnly (requestFields p) s (frameReceived p s) := by
  cases p
  · exact changesOnly_mono (setMeterPort_frame _ s) (by decide)
  · exact changesOnly_trans (changesOnly_mono (setTerminalPort_frame _ s) (by decide)) (changesOnly_mono (terminalSign_frame _) (by decide))

theorem arrived_frame (p : Port) (i : Instr) (s : State) :
    changesOnly [.handed, .radio, .duty, .offers, .meter, .terminal] s (arrived p i s) := by
  unfold arrived
  split
  · intro f hf
    cases f <;> first | rfl | exact absurd (by decide) hf
  · exact changesOnly_mono (frameReceived_frame p s) (by decide)

/-- The arrival of a command on a port changes what a request of that port may (R77, R165). -/
theorem arrived_port (p : Port) (i : Instr) (s : State) : changesOnly (requestFields p) s (arrived p i s) := by
  unfold arrived
  split
  · intro f hf
    cases p <;> cases f <;> first | rfl | exact absurd (by decide) hf
  · exact frameReceived_port p s

/-! ## The transmitter -/

theorem transmit_frame (k : TxKind) (frame : List Byte) (s : State) : changesOnly [.radio] s (transmit k frame s) := by
  intro f hf
  cases f <;> first | rfl | exact absurd (by decide) hf

theorem sendEntry_frame (e : Entry) (s : State) : changesOnly [.radio] s (sendEntry e s) := by
  intro f hf
  cases f <;> first | rfl | exact absurd (by decide) hf

theorem sendBlind_frame (status : Nat) (s : State) : changesOnly [.radio] s (sendBlind status s) := by
  unfold sendBlind
  split
  · split <;> (intro f hf; cases f <;> first | rfl | exact absurd (by decide) hf)
  · exact changesOnly_refl _ s

theorem sendNextBlind_frame (s : State) : changesOnly [.radio] s (sendNextBlind s) := by
  unfold sendNextBlind
  split
  · exact changesOnly_refl _ s
  · intro f hf
    cases f <;> first | rfl | exact absurd (by decide) hf

theorem releaseKey_frame (s : State) : changesOnly [.radio] s (releaseKey s) := by
  refine changesOnly_trans ?_ (sendNextBlind_frame _)
  intro f hf
  cases f <;> first | rfl | exact absurd (by decide) hf

/-! ## Fare, tariff and trips -/

theorem countMetres_frame (n : Nat) (s : State) : changesOnly [.totals, .dist] s (countMetres n s) := by
  intro f hf
  cases f <;> first | rfl | exact absurd (by decide) hf

theorem lookupMark_frame (a : Bool) (s : State) : changesOnly [.tariff, .faults, .meter] s (lookupMark a s) := by
  unfold lookupMark
  split
  · intro f hf
    cases f <;> first | rfl | exact absurd (by decide) hf
  · exact changesOnly_refl _ s

theorem speedFaultEntry_frame (m : Nat) (t : Trip) (s : State) : changesOnly [.faults, .meter] s (speedFaultEntry m t s) := by
  unfold speedFaultEntry
  split
  · exact placeFault_frame _ _ s
  · exact changesOnly_refl _ s

theorem chargeNotices_frame (t : Trip) (s : State) : changesOnly [.meter, .terminal] s (chargeNotices t s) := by
  unfold chargeNotices
  split
  · exact changesOnly_refl _ s
  · intro f hf
    cases f <;> first | rfl | exact absurd (by decide) hf

theorem evaluate_frame (img : Image) (t : Trip) (s : State) : changesOnly [.tariff, .trip, .dist, .faults, .meter, .terminal] s (evaluate img t s) := by
  unfold evaluate
  dsimp only
  refine changesOnly_trans ?_ (changesOnly_mono (fs := [.meter, .terminal]) (chargeNotices_frame _ _) (by decide))
  refine changesOnly_trans (t := speedFaultEntry s.dist.metres t (if t.mode = .auto then lookupMark true s else s)) ?_ ?_
  · refine changesOnly_trans (t := if t.mode = .auto then lookupMark true s else s)
      (changesOnly_ite (changesOnly_mono (lookupMark_frame true s) (by decide)) (changesOnly_refl _ s)) ?_
    exact changesOnly_mono (speedFaultEntry_frame _ _ _) (by decide)
  · intro f hf
    cases f <;> first | rfl | exact absurd (by decide) hf

theorem partialEvaluate_frame (img : Image) (t : Trip) (s : State) : changesOnly [.trip, .dist, .faults, .meter, .terminal] s (partialEvaluate img t s) := by
  unfold partialEvaluate
  dsimp only
  refine changesOnly_trans ?_ (changesOnly_mono (fs := [.meter, .terminal]) (chargeNotices_frame _ _) (by decide))
  refine changesOnly_trans (t := speedFaultEntry s.dist.metres t s) (changesOnly_mono (speedFaultEntry_frame _ _ _) (by decide)) ?_
  intro f hf
  cases f <;> first | rfl | exact absurd (by decide) hf

theorem ensureFareTotal_frame (s : State) : changesOnly [.radio] s (ensureFareTotal s) := by
  unfold ensureFareTotal
  split
  · intro f hf
    cases f <;> first | rfl | exact absurd (by decide) hf
  · exact changesOnly_refl _ s

theorem fareTotalAcknowledged_frame (s : State) : changesOnly [.closed, .totals, .radio] s (fareTotalAcknowledged s) := by
  unfold fareTotalAcknowledged
  split
  · exact changesOnly_refl _ s
  · refine changesOnly_trans ?_ (changesOnly_mono (ensureFareTotal_frame _) (by decide))
    intro f hf
    cases f <;> first | rfl | exact absurd (by decide) hf

theorem activatePending_frame (s : State) : changesOnly [.tariff, .meter] s (activatePending s) := by
  unfold activatePending
  split
  · exact changesOnly_refl _ s
  · intro f hf
    cases f <;> first | rfl | exact absurd (by decide) hf

theorem closeTrip_frame (t : Trip) (total : Nat) (s : State) : changesOnly [.resumeDue, .closed, .alarm, .totals, .radio] s (closeTrip t total s) := by
  unfold closeTrip
  refine changesOnly_trans ?_ (changesOnly_mono (ensureFareTotal_frame _) (by decide))
  intro f hf
  cases f <;> first | rfl | exact absurd (by decide) hf

theorem leaveHired_frame (s : State) : changesOnly [.pool, .duty, .terminal] s (leaveHired s) := by
  intro f hf
  cases f <;> first | rfl | exact absurd (by decide) hf

theorem endTrip_frame (s : State) : changesOnly [.trip, .evalDue, .dist, .terminal] s (endTrip s) := by
  intro f hf
  cases f <;> first | rfl | exact absurd (by decide) hf

theorem hireSlot_frame (s : State) : changesOnly [.pool, .duty, .terminal] s (hireSlot s) := by
  intro f hf
  cases f <;> first | rfl | exact absurd (by decide) hf

theorem startTrip_frame (m : BandMode) (n : Nat) (img : Image) (s : State) : changesOnly [.trip, .evalDue, .dist, .terminal, .tariff, .faults, .meter] s (startTrip m n img s) := by
  unfold startTrip
  refine changesOnly_trans (t := if m = .auto then lookupMark Config.flagDownFaultIsActive s else s)
    (changesOnly_ite (changesOnly_mono (lookupMark_frame _ s) (by decide)) (changesOnly_refl _ s)) ?_
  intro f hf
  cases f <;> first | rfl | exact absurd (by decide) hf

/-! ## Duty and offers -/

theorem emptyPlaces_frame (n : Nat) (s : State) : changesOnly [.pool, .duty, .trip, .terminal] s (emptyPlaces n s) := by
  intro f hf
  cases f <;> first | rfl | exact absurd (by decide) hf

theorem cancelJob_frame (n : Nat) (s : State) : changesOnly [.pool, .duty, .trip, .terminal, .radio, .offers] s (cancelJob n s) := by
  unfold cancelJob
  split
  · exact changesOnly_trans (changesOnly_mono (emptyPlaces_frame n s) (by decide)) (changesOnly_mono (dutyChanged_frame _ _) (by decide))
  · split
    · exact changesOnly_trans (changesOnly_mono (emptyPlaces_frame n s) (by decide)) (changesOnly_mono (refreshStatus_frame _ _) (by decide))
    · split
      · exact changesOnly_mono (emptyPlaces_frame n s) (by decide)
      · exact changesOnly_refl _ s

theorem enterOffer_frame (o : OfferFields) (s : State) : changesOnly [.pool, .offers, .terminal] s (enterOffer o s) := by
  intro f hf
  cases f <;> first | rfl | exact absurd (by decide) hf

theorem removeOffer_frame (x : Offer) (s : State) : changesOnly [.pool, .offers] s (removeOffer x s) := by
  intro f hf
  cases f <;> first | rfl | exact absurd (by decide) hf

theorem declineDirected_frame (o : OfferFields) (r : DeclineReason) (s : State) : changesOnly [.radio] s (declineDirected o r s) := by
  unfold declineDirected
  split
  · intro f hf
    cases f <;> first | rfl | exact absurd (by decide) hf
  · exact changesOnly_refl _ s

theorem placeOffer_frame (o : OfferFields) (s : State) : changesOnly [.pool, .offers, .terminal, .radio] s (placeOffer o s) := by
  unfold placeOffer
  split
  · exact changesOnly_mono (enterOffer_frame o s) (by decide)
  · split
    · exact changesOnly_trans (changesOnly_mono (removeOffer_frame _ s) (by decide)) (changesOnly_mono (enterOffer_frame o _) (by decide))
    · exact changesOnly_mono (declineDirected_frame o _ s) (by decide)

theorem declineOthers_frame (n : Nat) (s : State) : changesOnly [.offers, .radio] s (declineOthers n s) := by
  intro f hf
  cases f <;> first | rfl | exact absurd (by decide) hf

theorem passJob_frame (o : Offer) (h : Holder) (d : DutyUnit) (s : State) : changesOnly [.pool, .duty, .terminal, .offers, .radio] s (passJob o h d s) := by
  intro f hf
  cases f <;> first | rfl | exact absurd (by decide) hf

theorem abandonAccepted_frame (s : State) : changesOnly [.offers, .radio, .terminal] s (abandonAccepted s) := by
  intro f hf
  cases f <;> first | rfl | exact absurd (by decide) hf

/-! ## Messages -/

theorem answerDirected_frame (c : MessageClass) (n : Nat) (st : ReceiptStatus) (s : State) : changesOnly [.radio] s (answerDirected c n st s) := by
  unfold answerDirected
  split
  · exact changesOnly_refl _ s
  · intro f hf
    cases f <;> first | rfl | exact absurd (by decide) hf

theorem storeMessage_frame (n : Nat) (c : MessageClass) (pool : List Block) (text : TextRef) (s : State) : changesOnly [.pool, .messages, .terminal, .radio] s (storeMessage n c pool text s) := by
  unfold storeMessage
  refine changesOnly_trans ?_ (changesOnly_mono (answerDirected_frame _ _ _ _) (by decide))
  intro f hf
  cases f <;> first | rfl | exact absurd (by decide) hf

theorem takeDelete_frame (m : Inbound) (s : State) : changesOnly [.pool, .messages] s (takeDelete m s) := by
  intro f hf
  cases f <;> first | rfl | exact absurd (by decide) hf

theorem resolveOutbound_frame (n : Nat) (st : OutboundState) (s : State) : changesOnly [.pool, .messages, .terminal] s (resolveOutbound n st s) := by
  unfold resolveOutbound
  split
  · exact changesOnly_refl _ s
  · intro f hf
    cases f <;> first | rfl | exact absurd (by decide) hf

/-! ## Emergency -/

theorem makeAlert_frame (c : Bool) (status : Nat) (s : State) : changesOnly [.radio] s (makeAlert c status s) := by
  unfold makeAlert
  split
  · refine changesOnly_trans ?_ (sendBlind_frame _ _)
    intro f hf
    cases f <;> first | rfl | exact absurd (by decide) hf
  · intro f hf
    cases f <;> first | rfl | exact absurd (by decide) hf
  · intro f hf
    cases f <;> first | rfl | exact absurd (by decide) hf

theorem startCycle_frame (start : Nat) (s : State) : changesOnly [.alarm] s (startCycle start s) := by
  intro f hf
  cases f <;> first | rfl | exact absurd (by decide) hf

theorem burst_frame (c : BeaconCycle) (s : State) : changesOnly [.alarm, .radio] s (burst c s) := by
  unfold burst
  refine changesOnly_trans (t := if c.held then s else makeAlert false (emergencyCode s.alarm.record.state) s)
    (changesOnly_ite (changesOnly_refl _ s) (changesOnly_mono (makeAlert_frame _ _ s) (by decide))) ?_
  intro f hf
  cases f <;> first | rfl | exact absurd (by decide) hf

theorem beginMark_frame (s : State) : changesOnly [.alarm, .radio] s (beginMark s) := changesOnly_trans (changesOnly_mono (startCycle_frame _ s) (by decide)) (burst_frame _ _)

theorem changeSet_frame (b : BeaconSet) (s : State) : changesOnly [.alarm] s (changeSet b s) := by
  intro f hf
  cases f <;> first | rfl | exact absurd (by decide) hf

theorem cutOff_frame (s : State) : changesOnly [.radio] s (cutOff s) := by
  unfold cutOff
  split
  · refine changesOnly_trans ?_ (releaseKey_frame _)
    intro f hf
    cases f <;> first | rfl | exact absurd (by decide) hf
  · exact releaseKey_frame s
  · exact changesOnly_refl _ s
  · exact changesOnly_refl _ s

theorem enterEmergency_frame (s : State) : changesOnly [.alarm, .radio, .trip] s (enterEmergency s) := by
  intro f hf
  cases f <;> first | rfl | exact absurd (by decide) hf

theorem beginEmergency_frame (s : State) : changesOnly [.alarm, .radio, .trip, .offers, .terminal, .meter] s (beginEmergency s) := changesOnly_trans
    (changesOnly_trans
      (changesOnly_trans (changesOnly_mono (cutOff_frame s) (by decide)) (changesOnly_mono (enterEmergency_frame _) (by decide)))
      (changesOnly_trans (changesOnly_mono (recheck_frame _) (by decide)) (changesOnly_mono (beginMark_frame _) (by decide))))
    (changesOnly_mono (noticeEmergency_frame _) (by decide))

theorem escalateRecord_frame (s : State) : changesOnly [.alarm] s (escalateRecord s) := by
  intro f hf
  cases f <;> first | rfl | exact absurd (by decide) hf

theorem escalate_frame (s : State) : changesOnly [.alarm, .radio, .meter, .terminal] s (escalate s) := by
  unfold escalate
  refine changesOnly_trans (changesOnly_ite ?_ ?_) (changesOnly_mono (noticeEmergency_frame _) (by decide))
  · exact changesOnly_mono (changesOnly_trans (escalateRecord_frame s) (changeSet_frame .urgent _)) (by decide)
  · refine changesOnly_trans (changesOnly_mono (changesOnly_trans (escalateRecord_frame s) (changeSet_frame .urgent _)) (by decide)) ?_
    exact changesOnly_mono (beginMark_frame _) (by decide)

theorem setLine_frame (l : AlarmLine) (v : LineState) (s : State) : changesOnly [.alarm] s (setLine l v s) := by
  cases l <;> (intro f hf; cases f <;> first | rfl | exact absurd (by decide) hf)

theorem returnToNormal_frame (s : State) : changesOnly [.alarm, .radio, .closed, .meter, .terminal] s (returnToNormal s) := by
  intro f hf
  cases f <;> first | rfl | exact absurd (by decide) hf

/-! ## The Uplink Scheduler -/

theorem setLink_frame (l : LinkState) (s : State) : changesOnly [.radio, .terminal] s (setLink l s) := by
  unfold setLink
  split
  · exact changesOnly_refl _ s
  · intro f hf
    cases f <;> first | rfl | exact absurd (by decide) hf

theorem openCycle_frame (h : HeadFields) (s : State) : changesOnly [.draws, .radio] s (openCycle h s) := by
  intro f hf
  cases f <;> first | rfl | exact absurd (by decide) hf

theorem acceptAcknowledged_frame (n : Nat) (s : State) : changesOnly [.offers, .terminal] s (acceptAcknowledged n s) := by
  unfold acceptAcknowledged
  split
  · split
    · intro f hf
      cases f <;> first | rfl | exact absurd (by decide) hf
    · exact changesOnly_refl _ s
  · exact changesOnly_refl _ s

theorem statusAcknowledged_frame (c : Bool) (s : State) : changesOnly [.duty, .terminal] s (statusAcknowledged c s) := by
  unfold statusAcknowledged
  split
  · intro f hf
    cases f <;> first | rfl | exact absurd (by decide) hf
  · exact changesOnly_refl _ s

theorem ownerAcknowledged_frame (e : Entry) (s : State) : changesOnly [.offers, .terminal, .duty, .closed, .totals, .radio, .pool, .messages] s (ownerAcknowledged e s) := by
  unfold ownerAcknowledged
  split
  · exact changesOnly_refl _ s
  · exact changesOnly_mono (acceptAcknowledged_frame _ s) (by decide)
  · exact changesOnly_mono (queueWaiting_frame s) (by decide)
  · exact changesOnly_mono (fareTotalAcknowledged_frame s) (by decide)
  · exact changesOnly_mono (queueWaiting_frame s) (by decide)
  · exact changesOnly_mono (statusAcknowledged_frame _ s) (by decide)
  · exact changesOnly_mono (queueWaiting_frame s) (by decide)
  · exact changesOnly_trans (changesOnly_mono (resolveOutbound_frame _ _ s) (by decide)) (changesOnly_mono (queueWaiting_frame _) (by decide))

theorem jobEventFailed_frame (k : JobEventKind) (n : Nat) (s : State) : changesOnly [.duty, .terminal, .radio] s (jobEventFailed k n s) := by
  intro f hf
  cases f <;> first | rfl | exact absurd (by decide) hf

theorem ownerFailed_frame (e : Entry) (s : State) : changesOnly [.duty, .terminal, .radio, .pool, .messages] s (ownerFailed e s) := by
  unfold ownerFailed
  split
  · exact changesOnly_refl _ s
  · exact changesOnly_refl _ s
  · exact changesOnly_trans (changesOnly_mono (jobEventFailed_frame _ _ s) (by decide)) (changesOnly_mono (queueWaiting_frame _) (by decide))
  · exact changesOnly_refl _ s
  · exact changesOnly_mono (queueWaiting_frame s) (by decide)
  · exact changesOnly_refl _ s
  · exact changesOnly_mono (queueWaiting_frame s) (by decide)
  · exact changesOnly_trans (changesOnly_mono (resolveOutbound_frame _ _ s) (by decide)) (changesOnly_mono (queueWaiting_frame _) (by decide))

theorem dropEntry_frame (n : Nat) (s : State) : changesOnly [.radio] s (dropEntry n s) := by
  intro f hf
  cases f <;> first | rfl | exact absurd (by decide) hf

theorem changeEntry_frame (n : Nat) (f : Entry → Entry) (s : State) : changesOnly [.radio] s (changeEntry n f s) := by
  intro f hf
  cases f <;> first | rfl | exact absurd (by decide) hf

theorem retryEntry_frame (e : Entry) (s : State) : changesOnly [.draws, .duty, .terminal, .radio, .pool, .messages] s (retryEntry e s) := by
  unfold retryEntry
  refine changesOnly_ite (changesOnly_mono (changeEntry_frame _ _ s) (by decide)) (changesOnly_ite ?_ ?_)
  · exact changesOnly_trans (changesOnly_mono (dropEntry_frame _ s) (by decide)) (changesOnly_mono (ownerFailed_frame e _) (by decide))
  · intro f hf
    cases f <;> first | rfl | exact absurd (by decide) hf

theorem notAcknowledged_frame (n : Nat) (s : State) : changesOnly [.draws, .duty, .terminal, .radio, .pool, .messages] s (notAcknowledged n s) := by
  unfold notAcknowledged
  split
  · exact changesOnly_ite (retryEntry_frame _ s) (changesOnly_refl _ s)
  · exact changesOnly_refl _ s

theorem takeAck_frame (s : State) (ack : Nat × Nat) : changesOnly [.offers, .terminal, .duty, .closed, .totals, .radio, .pool, .messages] s (takeAck s ack) := by
  unfold takeAck
  split
  · split
    · exact changesOnly_trans (changesOnly_mono (dropEntry_frame _ s) (by decide)) (ownerAcknowledged_frame _ _)
    · exact changesOnly_refl _ s
  · exact changesOnly_refl _ s

theorem lowerBackoffs_frame (s : State) : changesOnly [.radio] s (lowerBackoffs s) := by
  intro f hf
  cases f <;> first | rfl | exact absurd (by decide) hf

theorem settleAcks_frame (h : HeadFields) (s : State) : changesOnly [.draws, .offers, .terminal, .duty, .closed, .totals, .radio, .pool, .messages] s (settleAcks h s) := by
  unfold settleAcks
  refine changesOnly_trans (t := (if missedHead h s then [] else h.acks).foldl takeAck (lowerBackoffs s)) ?_ ?_
  · refine changesOnly_trans (changesOnly_mono (lowerBackoffs_frame s) (by decide)) ?_
    exact changesOnly_mono (changesOnly_foldl takeAck_frame _ _) (by decide)
  · exact changesOnly_mono (changesOnly_foldl (fun x n => notAcknowledged_frame n x) _ _) (by decide)

theorem takeHead_frame (h : HeadFields) (s : State) : changesOnly [.draws, .offers, .terminal, .duty, .closed, .totals, .radio, .pool, .messages] s (takeHead h s) := by
  unfold takeHead
  refine changesOnly_trans (settleAcks_frame h s) ?_
  exact changesOnly_trans (changesOnly_mono (setLink_frame _ _) (by decide)) (changesOnly_mono (openCycle_frame h _) (by decide))

theorem loseLink_frame (s : State) : changesOnly [.radio, .terminal] s (loseLink s) := by
  unfold loseLink
  refine changesOnly_trans ?_ (setLink_frame _ _)
  intro f hf
  cases f <;> first | rfl | exact absurd (by decide) hf

theorem sendContention_frame (ts : Nat) (s : State) : changesOnly [.radio] s (sendContention ts s) := by
  unfold sendContention
  split
  · split
    · exact sendEntry_frame _ s
    · exact changesOnly_ite (transmit_frame _ _ s) (changesOnly_refl _ s)
  · exact changesOnly_refl _ s

theorem sendReserved_frame (tl : Nat) (s : State) : changesOnly [.radio] s (sendReserved tl s) := by
  unfold sendReserved
  split
  · split
    · exact sendEntry_frame _ s
    · exact changesOnly_refl _ s
  · exact changesOnly_refl _ s

theorem completeEntry_frame (n : Nat) (s : State) : changesOnly [.closed, .radio] s (completeEntry n s) := by
  intro f hf
  cases f <;> first | rfl | exact absurd (by decide) hf

end Sys2Proof.Machine
end

