-- ==== Sys2Proof/Laws/Fare.lean ====
section
/-! SUPPORT. What the Fare Engine's operations (01) do, once for each. -/

namespace Sys2Proof.Machine

open Sys2Proof

/-- The units of one step of a band in range are not 0 (R4, R23). -/
theorem Band.units_pos {b : Band} (h : b.inRange = true) : 0 < b.units := by
  simp only [Band.inRange, within, Bool.and_eq_true, decide_eq_true_eq] at h
  obtain ⟨⟨⟨⟨⟨_, _⟩, _⟩, h4⟩, h5⟩, _⟩ := h
  exact Nat.mul_pos (by omega) (by omega)

/-- Nor are those of any band of an image in range. -/
theorem Image.band_units_pos {img : Image} (h : img.inRange = true) (n : Nat) : 0 < (img.band n).units := by
  simp only [Image.inRange, Bool.and_eq_true] at h
  obtain ⟨⟨⟨⟨⟨⟨⟨h1, h2⟩, h3⟩, h4⟩, _⟩, _⟩, _⟩, _⟩ := h
  apply Band.units_pos
  unfold Image.band
  split <;> assumption

/-- One charge and n more of the same amount are n + 1 charges (R12, R14). -/
theorem Trip.charge_succ (n a : Nat) (t : Trip) : (t.charge 1 a).charge n a = t.charge (n + 1) a := by
  unfold Trip.charge
  cases n with
  | zero => simp
  | succ n =>
    simp only [Nat.succ_ne_zero, if_false, satAdd, Config.countMax, Config.fareMax]
    have e : (n + 1 + 1) * a = (n + 1) * a + a := by rw [Nat.add_mul]; simp
    rw [e]
    generalize (n + 1) * a = x
    congr 1
    · omega
    · omega
    · cases t.saturated
      · simp only [Bool.false_or]
        rw [← Bool.decide_or]
        congr 1
        simp only [eq_iff_iff]
        omega
      · simp

/-- The mark of a lookup with the clock unset touches the mark, the Fault Log and the Meter Port's notices (R35). -/
theorem lookupMark_eq (active : Bool) (s : State) : ∃ faults meter, lookupMark active s = { s with
    faults := faults, meter := meter
    tariff := { s.tariff with clockUnsetMark := s.tariff.clockUnsetMark || !s.tariff.clock.isSet } } := by
  unfold lookupMark
  cases h1 : s.tariff.clock.isSet <;> cases h2 : s.tariff.clockUnsetMark
  · exact ⟨_, _, rfl⟩
  all_goals
    refine ⟨s.faults, s.meter, ?_⟩
    simp
    rw [← h2]

/-- SPEED IMPLAUSIBLE touches the Fault Log and the Meter Port's notices (R9). -/
theorem speedFaultEntry_eq (metres : Nat) (t : Trip) (s : State) :
    ∃ faults meter, speedFaultEntry metres t s = { s with faults := faults, meter := meter } := by
  unfold speedFaultEntry
  split
  · exact ⟨_, _, rfl⟩
  · exact ⟨s.faults, s.meter, rfl⟩

/-- The notices of an evaluation touch the two ports (R13, R15). -/
theorem chargeNotices_eq (t : Trip) (s : State) : ∃ meter terminal, chargeNotices t s = { s with meter := meter, terminal := terminal } := by
  unfold chargeNotices
  split
  · exact ⟨s.meter, s.terminal, rfl⟩
  · exact ⟨_, _, rfl⟩

/-- An evaluation: the trip charged, the metres taken, the clock-unset mark of an AUTO trip, and besides only the Fault Log and notices (R8 to
R15). -/
theorem evaluate_eq (img : Image) (t : Trip) (s : State) : ∃ faults meter terminal, evaluate img t s = { s with
    trip := some (Trip.chargeSteps img ((lookedUp img s.tariff.clock t).addSecond img s.dist.metres))
    dist := { s.dist with metres := 0 }
    faults := faults, meter := meter, terminal := terminal
    tariff := { s.tariff with clockUnsetMark := s.tariff.clockUnsetMark || (decide (t.mode = .auto) && !s.tariff.clock.isSet) } } := by
  have marked : ∃ faults meter, (if t.mode = .auto then lookupMark true s else s) = { s with
      faults := faults, meter := meter
      tariff := { s.tariff with clockUnsetMark := s.tariff.clockUnsetMark || (decide (t.mode = .auto) && !s.tariff.clock.isSet) } } := by
    cases hm : t.mode
    · exact lookupMark_eq true s
    · refine ⟨s.faults, s.meter, ?_⟩
      simp
  obtain ⟨f1, m1, h1⟩ := marked
  unfold evaluate
  simp only [h1]
  obtain ⟨f2, m2, h2⟩ := speedFaultEntry_eq s.dist.metres t { s with
    faults := f1, meter := m1
    tariff := { s.tariff with clockUnsetMark := s.tariff.clockUnsetMark || (decide (t.mode = .auto) && !s.tariff.clock.isSet) } }
  rw [h2]
  obtain ⟨m3, t3, h3⟩ := chargeNotices_eq ((lookedUp img s.tariff.clock t).addSecond img s.dist.metres) { s with
    trip := some (Trip.chargeSteps img ((lookedUp img s.tariff.clock t).addSecond img s.dist.metres))
    dist := { s.dist with metres := 0 }
    faults := f2, meter := m2
    tariff := { s.tariff with clockUnsetMark := s.tariff.clockUnsetMark || (decide (t.mode = .auto) && !s.tariff.clock.isSet) } }
  exact ⟨f2, m3, t3, h3⟩

end Sys2Proof.Machine
end

