-- ==== Sys2Proof/Laws/Owners.lean ====
section
/-! SUPPORT. What the owner of each command can change: one frame lemma for each, over the state in which it finds the part. -/

namespace Sys2Proof.Machine

open Sys2Proof

/-! ## Distance, fare and trips -/

theorem takePulse_frame (s : State) :
    changesOnly [.totals, .dist] s (takePulse s) := by
  unfold takePulse
  (repeat' split) <;> first | exact changesOnly_refl _ s | (intro f hf; cases f <;> first | rfl | exact absurd (by decide) hf)

theorem takeEvaluation_frame (s : State) :
    changesOnly [.now, .evalDue, .tariff, .trip, .dist, .faults, .meter, .terminal] s (takeEvaluation s) := by
  unfold takeEvaluation
  split
  · exact changesOnly_refl _ s
  · split
    · refine changesOnly_ite ?_ (changesOnly_refl _ s)
      refine changesOnly_trans ?_ (changesOnly_mono (evaluate_frame _ _ _) (by decide))
      intro f hf
      cases f <;> first | rfl | exact absurd (by decide) hf
    · exact changesOnly_refl _ s

theorem takeFlagDown_frame (mode : BandMode) (n : Nat) (img : Image) (s : State) :
    changesOnly [.trip, .evalDue, .dist, .terminal, .tariff, .faults, .meter, .pool, .duty, .offers, .radio] s (takeFlagDown mode n img s) := by
  unfold takeFlagDown
  refine changesOnly_trans (changesOnly_mono (startTrip_frame mode n img s) (by decide)) ?_
  refine changesOnly_trans (changesOnly_mono (hireSlot_frame _) (by decide)) ?_
  exact changesOnly_trans (changesOnly_mono (abandonAccepted_frame _) (by decide)) (changesOnly_mono (dutyChanged_frame _ _) (by decide))

theorem flagDown_frame (mode : Nat) (n : Nat) (s : State) :
    changesOnly [.trip, .evalDue, .dist, .terminal, .tariff, .faults, .meter, .pool, .duty, .offers, .radio] s (flagDown mode n s).1 := by
  unfold flagDown
  split
  · exact changesOnly_refl _ s
  · split
    · exact changesOnly_refl _ s
    · split
      · exact changesOnly_refl _ s
      · split
        · exact changesOnly_refl _ s
        · exact takeFlagDown_frame _ _ _ s

theorem takeStop_frame (t : Trip) (s : State) :
    changesOnly [.trip, .dist, .faults, .meter, .terminal, .evalDue, .resumeDue] s (takeStop t s) := by
  unfold takeStop
  refine changesOnly_trans (t := partialOf t s) ?_ ?_
  · unfold partialOf
    split
    · exact changesOnly_mono (partialEvaluate_frame _ _ s) (by decide)
    · exact changesOnly_refl _ s
  · intro f hf
    cases f <;> first | rfl | exact absurd (by decide) hf

theorem stop_frame (s : State) :
    changesOnly [.trip, .dist, .faults, .meter, .terminal, .evalDue, .resumeDue] s (stop s).1 := by
  unfold stop
  split
  · split
    · exact takeStop_frame _ s
    · exact changesOnly_refl _ s
  · exact changesOnly_refl _ s

theorem resume_frame (s : State) :
    changesOnly [.trip, .resumeDue, .evalDue, .terminal] s (resume s).1 := by
  unfold resume
  (repeat' split) <;> first | exact changesOnly_refl _ s | (intro f hf; cases f <;> first | rfl | exact absurd (by decide) hf)

theorem takeClear_frame (t : Trip) (total : Nat) (s : State) :
    changesOnly [.resumeDue, .closed, .alarm, .totals, .radio, .tariff, .meter, .trip, .evalDue, .dist, .terminal, .pool, .duty, .offers] s (takeClear t total s) := by
  unfold takeClear
  refine changesOnly_trans (changesOnly_mono (closeTrip_frame t total s) (by decide)) ?_
  refine changesOnly_trans (changesOnly_mono (activatePending_frame _) (by decide)) ?_
  refine changesOnly_trans (changesOnly_mono (endTrip_frame _) (by decide)) ?_
  exact changesOnly_trans (changesOnly_mono (leaveHired_frame _) (by decide)) (changesOnly_mono (dutyChanged_frame _ _) (by decide))

theorem clear_frame (s : State) :
    changesOnly [.resumeDue, .closed, .alarm, .totals, .radio, .tariff, .meter, .trip, .evalDue, .dist, .terminal, .pool, .duty, .offers] s (clear s).1 := by
  unfold clear
  split
  · exact changesOnly_refl _ s
  · split
    · exact changesOnly_refl _ s
    · exact takeClear_frame _ _ s

theorem addExtra_frame (n : Nat) (s : State) :
    changesOnly [.trip, .terminal] s (addExtra n s).1 := by
  unfold addExtra
  (repeat' split) <;> first | exact changesOnly_refl _ s | (intro f hf; cases f <;> first | rfl | exact absurd (by decide) hf)

theorem takeResumeExpiry_frame (s : State) :
    changesOnly [.now, .resumeDue] s (takeResumeExpiry s) := by
  unfold takeResumeExpiry
  (repeat' split) <;> first | exact changesOnly_refl _ s | (intro f hf; cases f <;> first | rfl | exact absurd (by decide) hf)

/-! ## Tariff, clock and settings -/

theorem loadTariffPart_frame (part : Nat) (content : List Byte) (s : State) :
    changesOnly [.tariff] s (loadTariffPart part content s).1 := by
  unfold loadTariffPart
  (repeat' split) <;> first | exact changesOnly_refl _ s | (intro f hf; cases f <;> first | rfl | exact absurd (by decide) hf)

theorem commitTariff_frame (expected : Nat) (s : State) :
    changesOnly [.tariff, .meter] s (commitTariff expected s).1 := by
  unfold commitTariff
  split
  · exact changesOnly_refl _ s
  · split
    · unfold commitImage
      dsimp only [done]
      split <;> (intro f hf; cases f <;> first | rfl | exact absurd (by decide) hf)
    · exact changesOnly_refl _ s

theorem setClock_frame (day : Nat) (hour : Nat) (minute : Nat) (second : Nat) (s : State) :
    changesOnly [.tariff] s (setClock day hour minute second s).1 := by
  unfold setClock
  (repeat' split) <;> first | exact changesOnly_refl _ s | (intro f hf; cases f <;> first | rfl | exact absurd (by decide) hf)

theorem calibrate_frame (k : Nat) (s : State) :
    changesOnly [.settings, .dist] s (calibrate k s).1 := by
  unfold calibrate
  (repeat' split) <;> first | exact changesOnly_refl _ s | (intro f hf; cases f <;> first | rfl | exact absurd (by decide) hf)

theorem setIdentity_frame (cab : Nat) (fleet : Nat) (s : State) :
    changesOnly [.settings] s (setIdentity cab fleet s).1 := by
  unfold setIdentity
  (repeat' split) <;> first | exact changesOnly_refl _ s | (intro f hf; cases f <;> first | rfl | exact absurd (by decide) hf)

theorem setAirRate_frame (rate : Nat) (s : State) :
    changesOnly [.settings] s (setAirRate rate s).1 := by
  unfold setAirRate
  (repeat' split) <;> first | exact changesOnly_refl _ s | (intro f hf; cases f <;> first | rfl | exact absurd (by decide) hf)

theorem setKeyLead_frame (ms : Nat) (s : State) :
    changesOnly [.settings] s (setKeyLead ms s).1 := by
  unfold setKeyLead
  (repeat' split) <;> first | exact changesOnly_refl _ s | (intro f hf; cases f <;> first | rfl | exact absurd (by decide) hf)

theorem setStatusInterval_frame (seconds : Nat) (s : State) :
    changesOnly [.settings] s (setStatusInterval seconds s).1 := by
  unfold setStatusInterval
  (repeat' split) <;> first | exact changesOnly_refl _ s | (intro f hf; cases f <;> first | rfl | exact absurd (by decide) hf)

theorem setAlarmVisible_frame (v : Nat) (s : State) :
    changesOnly [.settings] s (setAlarmVisible v s).1 := by
  unfold setAlarmVisible
  (repeat' split) <;> first | exact changesOnly_refl _ s | (intro f hf; cases f <;> first | rfl | exact absurd (by decide) hf)

theorem setUrgentSet_frame (count : Nat) (spacing : Nat) (space : Nat) (s : State) :
    changesOnly [.settings] s (setUrgentSet count spacing space s).1 := by
  unfold setUrgentSet
  (repeat' split) <;> first | exact changesOnly_refl _ s | (intro f hf; cases f <;> first | rfl | exact absurd (by decide) hf)

theorem setSustainedSet_frame (count : Nat) (spacing : Nat) (space : Nat) (s : State) :
    changesOnly [.settings] s (setSustainedSet count spacing space s).1 := by
  unfold setSustainedSet
  (repeat' split) <;> first | exact changesOnly_refl _ s | (intro f hf; cases f <;> first | rfl | exact absurd (by decide) hf)

theorem setSensitivity_frame (line : AlarmLine) (v : Nat) (s : State) :
    changesOnly [.settings, .alarm] s (setSensitivity line v s).1 := by
  unfold setSensitivity
  split
  · exact changesOnly_refl _ s
  · split
    · refine changesOnly_ite (changesOnly_refl _ s) ?_
      cases line <;> (intro f hf; cases f <;> first | rfl | exact absurd (by decide) hf)
    · exact changesOnly_refl _ s

theorem clearFaults_frame (s : State) :
    changesOnly [.faults] s (clearFaults s).1 := by
  unfold clearFaults
  (repeat' split) <;> first | exact changesOnly_refl _ s | (intro f hf; cases f <;> first | rfl | exact absurd (by decide) hf)

/-! ## Ports -/

theorem setNotices_frame (p : Port) (enable : Nat) (s : State) :
    changesOnly [.meter, .terminal] s (setNotices p enable s).1 := by
  unfold setNotices
  split
  · exact setPort_frame _ _ s
  · exact changesOnly_refl _ s

theorem takeReadReply_frame (p : Port) (s : State) :
    changesOnly [.radio, .duty, .offers, .meter, .terminal] s (takeReadReply p s) := by
  unfold takeReadReply
  exact changesOnly_trans (changesOnly_mono (signOf_frame p s) (by decide)) (changesOnly_mono (setAnswer_frame p _ _) (by decide))

theorem fetchNotices_frame (p : Port) (s : State) :
    changesOnly [.meter, .terminal] s (fetchNotices p s) := by
  exact setPort_frame p _ s

theorem takeReadNotices_frame (p : Port) (s : State) :
    changesOnly [.radio, .duty, .offers, .meter, .terminal] s (takeReadNotices p s) := by
  unfold takeReadNotices
  split
  · exact changesOnly_trans (changesOnly_mono (signOf_frame p s) (by decide)) (changesOnly_mono (fetchNotices_frame p _) (by decide))
  · exact changesOnly_trans (changesOnly_mono (fetchNotices_frame p s) (by decide)) (changesOnly_mono (signOf_frame p _) (by decide))

theorem handOn_frame (p : Port) (code : Nat) (h : Handed) (s : State) : changesOnly [.handed, .meter, .terminal] s (handOn p code h s) := by
  refine changesOnly_trans ?_ (changesOnly_mono (setBuffer_frame p _ _) (by decide))
  intro f hf
  cases f <;> first | rfl | exact absurd (by decide) hf

theorem takeUnknownItem_frame (s : State) : changesOnly [.handed, .meter, .terminal] s (takeUnknownItem s) := by
  unfold takeUnknownItem
  split
  · refine changesOnly_trans ?_ (changesOnly_mono (setBuffer_frame _ _ _) (by decide))
    intro f hf
    cases f <;> first | rfl | exact absurd (by decide) hf
  · exact changesOnly_refl _ s

theorem takeFrame_frame (p : Port) (code : Byte) (args : List Byte) (s : State) :
    changesOnly [.handed, .meter, .terminal] s (takeFrame p code args s) := by
  unfold takeFrame
  split
  · exact changesOnly_refl _ s
  · split
    · exact changesOnly_mono (setBuffer_frame p _ s) (by decide)
    · exact changesOnly_mono (setBuffer_frame p _ s) (by decide)
    · exact handOn_frame p _ _ s
    · exact handOn_frame p _ _ s

theorem takeTransaction_frame (p : Port) (bytes : List Byte) (s : State) :
    changesOnly [.handed, .radio, .duty, .offers, .meter, .terminal] s (takeTransaction p bytes s) := by
  unfold takeTransaction
  split
  · refine changesOnly_ite (changesOnly_mono (takeReadReply_frame p s) (by decide)) ?_
    refine changesOnly_ite (changesOnly_mono (takeReadNotices_frame p s) (by decide)) ?_
    refine changesOnly_ite (changesOnly_mono (driveIdle_frame p s) (by decide)) ?_
    exact changesOnly_trans (changesOnly_mono (frameReceived_frame p s) (by decide)) (changesOnly_mono (takeFrame_frame p _ _ _) (by decide))
  · exact changesOnly_ite (changesOnly_refl _ s) (changesOnly_mono (driveIdle_frame p s) (by decide))
  · exact changesOnly_refl _ s

/-! ## Duty, jobs and offers -/

theorem signOn_frame (s : State) :
    changesOnly [.radio, .duty, .offers, .terminal] s (signOn s).1 := by
  unfold signOn
  (repeat' split) <;> first | exact changesOnly_refl _ s | (intro f hf; cases f <;> first | rfl | exact absurd (by decide) hf)

theorem signOff_frame (s : State) :
    changesOnly [.radio, .duty, .offers, .terminal] s (signOff s).1 := by
  unfold signOff
  (repeat' split) <;> first | exact changesOnly_refl _ s | (intro f hf; cases f <;> first | rfl | exact absurd (by decide) hf)

theorem soonClear_frame (minutes : Nat) (s : State) :
    changesOnly [.radio, .duty, .offers, .terminal] s (soonClear minutes s).1 := by
  unfold soonClear
  split
  · unfold takeSoonClear
    dsimp only [done]
    (repeat' split) <;> (intro f hf; cases f <;> first | rfl | exact absurd (by decide) hf)
  · exact changesOnly_refl _ s

theorem cancelClear_frame (s : State) :
    changesOnly [.radio, .duty, .offers, .terminal] s (cancelClear s).1 := by
  unfold cancelClear
  (repeat' split) <;> first | exact changesOnly_refl _ s | (intro f hf; cases f <;> first | rfl | exact absurd (by decide) hf)

theorem endCurrentJob_frame (j : Job) (s : State) :
    changesOnly [.radio, .duty, .offers, .terminal, .pool] s (endCurrentJob j s) := by
  unfold endCurrentJob
  refine changesOnly_trans ?_ (changesOnly_mono (dutyChanged_frame _ _) (by decide))
  intro f hf
  cases f <;> first | rfl | exact absurd (by decide) hf

theorem noShow_frame (s : State) :
    changesOnly [.radio, .duty, .offers, .terminal, .pool] s (noShow s).1 := by
  unfold noShow
  split
  · split
    · refine changesOnly_trans ?_ (endCurrentJob_frame _ _)
      intro f hf
      cases f <;> first | rfl | exact absurd (by decide) hf
    · exact changesOnly_refl _ s
  · exact changesOnly_refl _ s

theorem takeStatusInterval_frame (s : State) :
    changesOnly [.now, .radio, .duty] s (takeStatusInterval s) := by
  unfold takeStatusInterval
  (repeat' split) <;> first | exact changesOnly_refl _ s | (intro f hf; cases f <;> first | rfl | exact absurd (by decide) hf)

theorem takePresenceExpiry_frame (s : State) :
    changesOnly [.now, .radio, .duty, .offers, .terminal] s (takePresenceExpiry s) := by
  unfold takePresenceExpiry
  (repeat' split) <;> first | exact changesOnly_refl _ s | (intro f hf; cases f <;> first | rfl | exact absurd (by decide) hf)

theorem setZones_frame (zones : List Nat) (s : State) :
    changesOnly [.offers] s (setZones zones s).1 := by
  unfold setZones
  (repeat' split) <;> first | exact changesOnly_refl _ s | (intro f hf; cases f <;> first | rfl | exact absurd (by decide) hf)

theorem setOfferMode_frame (v : Nat) (s : State) :
    changesOnly [.offers] s (setOfferMode v s).1 := by
  unfold setOfferMode
  (repeat' split) <;> first | exact changesOnly_refl _ s | (intro f hf; cases f <;> first | rfl | exact absurd (by decide) hf)

theorem takeOffer_frame (a : Address) (o : OfferFields) (s : State) :
    changesOnly [.pool, .offers, .terminal, .radio] s (takeOffer a o s) := by
  unfold takeOffer
  refine changesOnly_ite ?_ (changesOnly_refl _ s)
  split
  · split
    · intro f hf
      cases f <;> first | rfl | exact absurd (by decide) hf
    · exact changesOnly_refl _ s
  · refine changesOnly_ite (changesOnly_refl _ s) ?_
    unfold filterOffer
    split
    · exact changesOnly_mono (declineDirected_frame o _ s) (by decide)
    · exact changesOnly_ite (changesOnly_refl _ s) (placeOffer_frame o s)

theorem takeAccept_frame (n : Nat) (s : State) :
    changesOnly [.offers, .radio, .terminal] s (takeAccept n s) := by
  unfold takeAccept
  dsimp only
  split
  · refine changesOnly_trans ?_ (changesOnly_mono (declineOthers_frame n _) (by decide))
    intro f hf
    cases f <;> first | rfl | exact absurd (by decide) hf
  · intro f hf
    cases f <;> first | rfl | exact absurd (by decide) hf

theorem accept_frame (n : Nat) (s : State) :
    changesOnly [.offers, .radio, .terminal] s (accept n s).1 := by
  unfold accept
  (repeat' split) <;> first | exact changesOnly_refl _ s | exact takeAccept_frame n s

theorem decline_frame (n : Nat) (s : State) :
    changesOnly [.offers, .radio, .terminal] s (decline n s).1 := by
  unfold decline
  (repeat' split) <;> first | exact changesOnly_refl _ s | (intro f hf; cases f <;> first | rfl | exact absurd (by decide) hf)

theorem dismiss_frame (n : Nat) (s : State) :
    changesOnly [.pool, .offers] s (dismiss n s).1 := by
  unfold dismiss
  (repeat' split) <;> first | exact changesOnly_refl _ s | exact removeOffer_frame _ s

theorem takeDeadline_frame (n : Nat) (s : State) :
    changesOnly [.now, .offers, .terminal] s (takeDeadline n s) := by
  unfold takeDeadline
  (repeat' split) <;> first | exact changesOnly_refl _ s | (intro f hf; cases f <;> first | rfl | exact absurd (by decide) hf)

theorem takeAwardExpiry_frame (n : Nat) (s : State) :
    changesOnly [.now, .offers, .radio, .terminal] s (takeAwardExpiry n s) := by
  unfold takeAwardExpiry
  (repeat' split) <;> first | exact changesOnly_refl _ s | (intro f hf; cases f <;> first | rfl | exact absurd (by decide) hf)

theorem placeJob_frame (o : Offer) (s : State) :
    changesOnly [.pool, .duty, .terminal, .offers, .radio] s (placeJob o s) := by
  unfold placeJob
  split
  · exact changesOnly_trans (changesOnly_mono (passJob_frame _ _ _ s) (by decide)) (changesOnly_mono (dutyChanged_frame _ _) (by decide))
  · refine changesOnly_trans (t := passJob o .nextJob { s.duty with next := some o.job } s) (changesOnly_mono (passJob_frame _ _ _ s) (by decide)) ?_
    exact changesOnly_trans (changesOnly_mono (refreshStatus_frame _ _) (by decide)) (changesOnly_mono (recheck_frame _) (by decide))
  · intro f hf
    cases f <;> first | rfl | exact absurd (by decide) hf

theorem takeAward_frame (n : Nat) (s : State) :
    changesOnly [.pool, .duty, .terminal, .offers, .radio] s (takeAward n s) := by
  unfold takeAward
  refine changesOnly_ite (changesOnly_refl _ s) ?_
  split
  · refine changesOnly_ite (placeJob_frame _ s) ?_
    intro f hf
    cases f <;> first | rfl | exact absurd (by decide) hf
  · intro f hf
    cases f <;> first | rfl | exact absurd (by decide) hf

theorem endOffer_frame (o : Offer) (st : OfferState) (s : State) :
    changesOnly [.offers, .radio, .terminal] s (endOffer o st s) := by
  unfold endOffer
  split <;> (intro f hf; cases f <;> first | rfl | exact absurd (by decide) hf)

theorem takeLost_frame (n : Nat) (s : State) :
    changesOnly [.offers, .radio, .terminal] s (takeLost n s) := by
  unfold takeLost
  split
  · exact changesOnly_ite (changesOnly_refl _ s) (endOffer_frame _ _ s)
  · exact changesOnly_refl _ s

theorem withdrawJob_frame (n : Nat) (s : State) :
    changesOnly [.pool, .duty, .trip, .terminal, .radio, .offers] s (withdrawJob n s) := by
  unfold withdrawJob
  exact changesOnly_ite (cancelJob_frame n s) (changesOnly_refl _ s)

theorem takeWithdraw_frame (n : Nat) (s : State) :
    changesOnly [.pool, .duty, .trip, .terminal, .radio, .offers] s (takeWithdraw n s) := by
  unfold takeWithdraw
  split
  · exact changesOnly_ite (withdrawJob_frame n s) (changesOnly_mono (endOffer_frame _ _ s) (by decide))
  · exact withdrawJob_frame n s

/-! ## Messages -/

theorem takeMessage_frame (a : Address) (n : Nat) (c : MessageClass) (text : List Byte) (s : State) :
    changesOnly [.pool, .messages, .terminal, .radio] s (takeMessage a n c text s) := by
  unfold takeMessage
  refine changesOnly_ite ?_ (changesOnly_refl _ s)
  split
  · exact changesOnly_mono (answerDirected_frame _ _ _ s) (by decide)
  · refine changesOnly_ite (changesOnly_mono (answerDirected_frame _ _ _ s) (by decide)) ?_
    unfold roomForMessage
    refine changesOnly_ite ?_ (changesOnly_mono (answerDirected_frame _ _ _ s) (by decide))
    split
    · exact storeMessage_frame _ _ _ _ s
    · exact changesOnly_mono (answerDirected_frame _ _ _ s) (by decide)

theorem markRead_frame (n : Nat) (s : State) :
    changesOnly [.messages, .radio] s (markRead n s).1 := by
  unfold markRead
  split
  · exact changesOnly_refl _ s
  · split
    · exact changesOnly_refl _ s
    · dsimp only [done]
      split <;> (intro f hf; cases f <;> first | rfl | exact absurd (by decide) hf)

theorem delete_frame (n : Nat) (s : State) :
    changesOnly [.pool, .messages] s (delete n s).1 := by
  unfold delete
  (repeat' split) <;> first | exact changesOnly_refl _ s | exact takeDelete_frame _ s

theorem addOutbound_frame (room : List Outbound) (n : Nat) (linked : Option Nat) (content : OutboundContent) (pool : List Block) (s : State) :
    changesOnly [.pool, .messages, .radio] s (addOutbound room n linked content pool s).1 := by
  unfold addOutbound
  refine changesOnly_trans ?_ (changesOnly_mono (queueWaiting_frame _) (by decide))
  intro f hf
  cases f <;> first | rfl | exact absurd (by decide) hf

theorem sendMessage_frame (linked : Option Nat) (canned : Nat) (text : List Byte) (s : State) :
    changesOnly [.pool, .messages, .radio] s (sendMessage linked canned text s).1 := by
  unfold sendMessage
  split
  · exact changesOnly_refl _ s
  · unfold takeOutbound
    split
    · exact changesOnly_refl _ s
    · dsimp only
      split
      · exact addOutbound_frame _ _ _ _ _ s
      · split
        · exact addOutbound_frame _ _ _ _ _ s
        · exact changesOnly_refl _ s

theorem reply_frame (n canned : Nat) (text : List Byte) (s : State) :
    changesOnly [.pool, .messages, .radio] s (reply n canned text s).1 := by
  unfold reply
  split
  · exact changesOnly_refl _ s
  · split
    · exact changesOnly_refl _ s
    · unfold markReplied
      dsimp only
      split
      · refine changesOnly_trans (t := (sendMessage (some n) canned text s).1) (sendMessage_frame _ _ _ s) ?_
        intro f hf
        cases f <;> first | rfl | exact absurd (by decide) hf
      · exact sendMessage_frame _ _ _ s

theorem dismissOutbound_frame (n : Nat) (s : State) :
    changesOnly [.messages] s (dismissOutbound n s).1 := by
  unfold dismissOutbound
  (repeat' split) <;> first | exact changesOnly_refl _ s | (intro f hf; cases f <;> first | rfl | exact absurd (by decide) hf)

/-! ## Alarms -/

theorem takePress_frame (s : State) :
    changesOnly [.alarm, .radio, .trip, .offers, .terminal, .meter] s (takePress s) := by
  unfold takePress
  split
  · refine changesOnly_trans ?_ (changesOnly_mono (escalate_frame _) (by decide))
    intro f hf
    cases f <;> first | rfl | exact absurd (by decide) hf
  · refine changesOnly_trans ?_ (beginEmergency_frame _)
    intro f hf
    cases f <;> first | rfl | exact absurd (by decide) hf

theorem takeLevels_frame (l0 l1 : Option Level) (s : State) :
    changesOnly [.alarm, .radio, .trip, .offers, .terminal, .meter] s (takeLevels l0 l1 s) := by
  unfold takeLevels
  dsimp only
  split
  · refine changesOnly_trans ?_ (takePress_frame _)
    intro f hf
    cases f <;> first | rfl | exact absurd (by decide) hf
  · intro f hf
    cases f <;> first | rfl | exact absurd (by decide) hf

theorem takeArmed_frame (line : AlarmLine) (level : Level) (s : State) :
    changesOnly [.alarm] s (takeArmed line level s) := by
  unfold takeArmed
  exact changesOnly_ite (changesOnly_refl _ s) (changesOnly_ite (changesOnly_refl _ s) (setLine_frame _ _ s))

theorem takeStuck_frame (line : AlarmLine) (s : State) :
    changesOnly [.alarm, .faults, .meter] s (takeStuck line s) := by
  unfold takeStuck
  refine changesOnly_ite ?_ (changesOnly_refl _ s)
  exact changesOnly_trans (changesOnly_mono (setLine_frame _ _ s) (by decide)) (changesOnly_mono (placeFault_frame _ _ _) (by decide))

theorem alarmCancel_frame (s : State) :
    changesOnly [.alarm, .radio, .closed, .meter, .terminal] s (alarmCancel s).1 := by
  unfold alarmCancel
  split
  · exact changesOnly_refl _ s
  · split
    · exact changesOnly_trans (returnToNormal_frame s) (changesOnly_mono (makeAlert_frame _ _ _) (by decide))
    · exact changesOnly_refl _ s
  · exact changesOnly_refl _ s

theorem takeCancelExpiry_frame (s : State) :
    changesOnly [.now, .alarm] s (takeCancelExpiry s) := by
  unfold takeCancelExpiry
  (repeat' split) <;> first | exact changesOnly_refl _ s | (intro f hf; cases f <;> first | rfl | exact absurd (by decide) hf)

theorem takeAlertSeen_frame (s : State) :
    changesOnly [.alarm, .meter, .terminal] s (takeAlertSeen s) := by
  unfold takeAlertSeen
  (repeat' split) <;> first | exact changesOnly_refl _ s | (intro f hf; cases f <;> first | rfl | exact absurd (by decide) hf)

theorem takeStandDown_frame (s : State) :
    changesOnly [.alarm, .radio, .closed, .meter, .terminal] s (takeStandDown s) := by
  unfold takeStandDown
  (repeat' split) <;> first | exact changesOnly_refl _ s | (intro f hf; cases f <;> first | rfl | exact absurd (by decide) hf)

theorem takeBeaconHold_frame (n : Nat) (s : State) :
    changesOnly [.alarm] s (takeBeaconHold n s) := by
  unfold takeBeaconHold
  (repeat' split) <;> first | exact changesOnly_refl _ s | (intro f hf; cases f <;> first | rfl | exact absurd (by decide) hf)

theorem takeCycleStart_frame (s : State) :
    changesOnly [.now, .alarm] s (takeCycleStart s) := by
  unfold takeCycleStart
  (repeat' split) <;> first | exact changesOnly_refl _ s | (intro f hf; cases f <;> first | rfl | exact absurd (by decide) hf)

theorem takeBurst_frame (s : State) :
    changesOnly [.now, .alarm, .radio] s (takeBurst s) := by
  unfold takeBurst
  split
  · exact changesOnly_trans (changesOnly_mono (reach_frame _ s) (by decide)) (changesOnly_mono (burst_frame _ _) (by decide))
  · exact changesOnly_refl _ s

/-! ## Radio -/

theorem takeBackoffEnd_frame (n : Nat) (s : State) :
    changesOnly [.radio] s (takeBackoffEnd n s) := by
  unfold takeBackoffEnd
  (repeat' split) <;> first | exact changesOnly_refl _ s | (intro f hf; cases f <;> first | rfl | exact absurd (by decide) hf)

theorem takeRetryLimit_frame (n : Nat) (s : State) :
    changesOnly [.duty, .terminal, .radio, .pool, .messages] s (takeRetryLimit n s) := by
  unfold takeRetryLimit
  split
  · refine changesOnly_ite ?_ (changesOnly_refl _ s)
    exact changesOnly_trans (changesOnly_mono (dropEntry_frame _ s) (by decide)) (ownerFailed_frame _ _)
  · exact changesOnly_refl _ s

theorem takeLinkLost_frame (s : State) :
    changesOnly [.now, .radio, .terminal] s (takeLinkLost s) := by
  unfold takeLinkLost
  split
  · exact changesOnly_refl _ s
  · refine changesOnly_ite (changesOnly_refl _ s) ?_
    exact changesOnly_trans (changesOnly_mono (reach_frame _ s) (by decide)) (changesOnly_mono (loseLink_frame _) (by decide))

theorem takeContention_frame (s : State) :
    changesOnly [.now, .radio] s (takeContention s) := by
  unfold takeContention
  split
  · exact changesOnly_refl _ s
  · refine changesOnly_ite (changesOnly_refl _ s) ?_
    refine changesOnly_trans ?_ (changesOnly_mono (sendContention_frame _ _) (by decide))
    intro f hf
    cases f <;> first | rfl | exact absurd (by decide) hf

theorem takeReserved_frame (j : Nat) (s : State) :
    changesOnly [.now, .radio] s (takeReserved j s) := by
  unfold takeReserved
  split
  · exact changesOnly_refl _ s
  · refine changesOnly_ite ?_ (changesOnly_refl _ s)
    refine changesOnly_trans ?_ (changesOnly_mono (sendReserved_frame _ _) (by decide))
    intro f hf
    cases f <;> first | rfl | exact absurd (by decide) hf

theorem takeTransmissionEnd_frame (s : State) :
    changesOnly [.now, .radio, .closed] s (takeTransmissionEnd s) := by
  unfold takeTransmissionEnd
  split
  · exact changesOnly_refl _ s
  · split
    · refine changesOnly_trans ?_ (changesOnly_mono (releaseKey_frame _) (by decide))
      exact changesOnly_trans (changesOnly_mono (reach_frame _ s) (by decide)) (changesOnly_mono (completeEntry_frame _ _) (by decide))
    · exact changesOnly_trans (changesOnly_mono (reach_frame _ s) (by decide)) (changesOnly_mono (releaseKey_frame _) (by decide))
    · exact changesOnly_refl _ s

theorem takeBlindEnd_frame (s : State) :
    changesOnly [.now, .radio] s (takeBlindEnd s) := by
  unfold takeBlindEnd
  split
  · exact changesOnly_refl _ s
  · refine changesOnly_ite ?_ (changesOnly_refl _ s)
    exact changesOnly_trans (changesOnly_mono (reach_frame _ s) (by decide)) (changesOnly_mono (releaseKey_frame _) (by decide))

theorem setPosition_frame (latitude longitude : Int) (s : State) :
    changesOnly [.radio] s (setPosition latitude longitude s).1 := by
  unfold setPosition
  (repeat' split) <;> first | exact changesOnly_refl _ s | (intro f hf; cases f <;> first | rfl | exact absurd (by decide) hf)

theorem setPriority_frame (kind : Nat) (level : Nat) (s : State) :
    changesOnly [.alarm, .radio] s (setPriority kind level s).1 := by
  unfold setPriority
  split
  · exact changesOnly_refl _ s
  · unfold writeLevel
    dsimp only [done]
    split <;> (intro f hf; cases f <;> first | rfl | exact absurd (by decide) hf)

/-! ## Supply -/

theorem goDown_frame (s : State) :
    changesOnly [.power, .now, .handed, .dist, .evalDue, .tariff, .resumeDue, .duty, .pool, .offers, .messages, .alarm, .radio, .meter,
      .terminal] s (goDown s) := by
  intro f hf
  cases f <;> first | rfl | exact absurd (by decide) hf

theorem checkActive_frame (s : State) : changesOnly [.tariff, .faults, .meter] s (checkActive s) := by
  unfold checkActive
  (repeat' split) <;> first | exact changesOnly_refl _ s | (intro f hf; cases f <;> first | rfl | exact absurd (by decide) hf)

theorem checkPending_frame (s : State) : changesOnly [.tariff, .faults, .meter] s (checkPending s) := by
  unfold checkPending
  (repeat' split) <;> first | exact changesOnly_refl _ s | (intro f hf; cases f <;> first | rfl | exact absurd (by decide) hf)

theorem continueTrip_frame (s : State) : changesOnly [.trip, .totals, .evalDue, .faults, .meter] s (continueTrip s) := by
  unfold continueTrip
  split
  · exact changesOnly_refl _ s
  · split
    · intro f hf
      cases f <;> first | rfl | exact absurd (by decide) hf
    · unfold keepStopped
      refine changesOnly_ite (changesOnly_refl _ s) ?_
      intro f hf
      cases f <;> first | rfl | exact absurd (by decide) hf

theorem continueEmergency_frame (s : State) : changesOnly [.alarm, .radio, .meter, .terminal] s (continueEmergency s) := by
  unfold continueEmergency
  refine changesOnly_ite ?_ (changesOnly_refl _ s)
  intro f hf
  cases f <;> first | rfl | exact absurd (by decide) hf

theorem restartBeacon_frame (s : State) : changesOnly [.alarm, .radio] s (restartBeacon s) :=
  changesOnly_ite (beginMark_frame s) (changesOnly_refl _ s)

/-- The steps of a warm start leave the retained settings and the closed trips alone (R178, R179). -/
theorem warmSteps_frame (reach : StartReach) (s : State) :
    changesOnly [.power, .now, .handed, .dist, .evalDue, .tariff, .trip, .resumeDue, .totals, .duty, .pool, .offers, .messages, .alarm, .radio,
      .meter, .terminal, .faults] s (warmSteps reach s) := by
  have k0 : changesOnly [.power, .now, .handed, .dist, .evalDue, .tariff, .trip, .resumeDue, .totals, .duty, .pool, .offers, .messages, .alarm,
      .radio, .meter, .terminal, .faults] s { resetVolatile s with power := .up } := by
    intro f hf
    cases f <;> first | rfl | exact absurd (by decide) hf
  have k1 := changesOnly_trans k0 (changesOnly_mono (checkActive_frame _) (by decide))
  have k2 := changesOnly_trans k1 (changesOnly_mono (checkPending_frame _) (by decide))
  have k3 := changesOnly_trans k2 (changesOnly_mono (continueTrip_frame _) (by decide))
  cases reach with
  | kind => exact k0
  | activeImage => exact k1
  | images => exact k2
  | trip => exact k3
  | emergency => exact changesOnly_trans k3 (changesOnly_mono (continueEmergency_frame _) (by decide))

/-- A warm start that completes leaves them alone too. -/
theorem warmStart_frame (s : State) :
    changesOnly [.power, .now, .handed, .dist, .evalDue, .tariff, .trip, .resumeDue, .totals, .duty, .pool, .offers, .messages, .alarm, .radio,
      .meter, .terminal, .faults] s (warmStart s) :=
  changesOnly_trans (changesOnly_trans (warmSteps_frame .emergency s) (changesOnly_mono (ensureFareTotal_frame _) (by decide)))
    (changesOnly_mono (restartBeacon_frame _) (by decide))

/-! ## A command around its owner -/

/-- A command given changes what its owner may, and the check value, which no frame speaks of. -/
theorem whenUp_frame {fs : List Field} {f : State → State} {s t : State} (hf : changesOnly fs s (f s)) (h : whenUp f s = .next t) :
    changesOnly fs s t := by
  unfold whenUp at h
  injection h with h
  rw [← h]
  exact changesOnly_ite (changesOnly_trans hf (changesOnly_mono (sealDomain_frame _) (by simp))) (changesOnly_refl _ s)

/-- A frame received changes what its owner may. -/
theorem receive_frame {fs : List Field} {c : Instr} {taken : Bool} {f : State → State} {s : State} (hf : changesOnly fs s (f s)) :
    changesOnly fs s (receive c taken f s) := changesOnly_ite hf (changesOnly_refl _ s)

end Sys2Proof.Machine
end

