-- ==== Sys2Proof/Laws/Keeping.lean ====
section
/-! SUPPORT. What it takes for a law of the state to be kept by every step: one premise for each owner, with the command's guards, and one theorem
that splits the step and its commands once. -/

namespace Sys2Proof.Machine

open Sys2Proof

/-- A law kept by every command, by a change of the queue, by the refusal of an unknown item and by the passing of time is kept by every step. -/
theorem step_keeps {P : State → Prop} (hp : ∀ s q, P s → P { s with pending := q }) (hn : ∀ s n, P s → P { s with now := n })
    (hu : ∀ s t, P s → whenUp takeUnknownItem s = .next t → P t) (he : ∀ c s t, P s → exec c s = .next t → P t) :
    ∀ s t, P s → step s = .next t → P t := by
  intro s t h hs
  unfold step at hs
  split at hs
  · exact he _ _ _ (hp _ _ h) hs
  · split at hs
    · exact he _ _ _ h hs
    · exact hu _ _ h hs
    · injection hs with hs; rw [← hs]
      unfold passTime; split
      · exact hn _ _ h
      · exact h

/-- A law kept by an operation of a part that is up, and by the update of the check value, is kept by the operation as a command. -/
theorem whenUp_keeps {P : State → Prop} (hd : ∀ s, P s → P (sealDomain s)) {f} {s t : State} (h : P s) (hf : s.power = .up → P (f s))
    (he : whenUp f s = .next t) : P t := by
  unfold whenUp at he
  injection he with he
  rw [← he]; split
  · rename_i hu; exact hd _ (hf hu)
  · exact h

/-- A law kept by the port and the sign of the terminal is kept by the reception of a frame on a port. -/
theorem frameReceived_keeps {P : State → Prop} (hset : ∀ p v s, P s → P (setPort p v s)) (hs : ∀ s, P s → P (terminalSign s)) (p) (s : State)
    (h : P s) : P (frameReceived p s) := by
  unfold frameReceived driveIdle setAnswer
  cases p
  · exact hset .meter _ s h
  · exact hs _ (hset .terminal _ s h)

/-- A law kept by the owner, the port and the sign of the terminal is kept by the request. -/
theorem request_keeps {P : State → Prop} (hset : ∀ p v s, P s → P (setPort p v s)) (hh : ∀ s l, P s → P { s with handed := l })
    (hs : ∀ s, P s → P (terminalSign s)) {p i o} (ho : ∀ s, P s → P (o s).1) (s : State) (h : P s) : P (request p i o s) := by
  unfold request
  split
  · unfold holdReply setBuffer
    apply hset; apply ho
    unfold arrived; split
    · exact hh _ _ h
    · exact frameReceived_keeps hset hs p _ h
  · exact frameReceived_keeps hset hs p _ h

/-- A law kept by the owner of a frame, when its fields are taken, is kept by the reception. -/
theorem receive_keeps {P : State → Prop} {c d f} (hf : d = true → ∀ s, P s → P (f s)) (s : State) (h : P s) : P (receive c d f s) := by
  unfold receive; split
  · rename_i hd
    simp at hd
    exact hf hd.2 _ h
  · exact h

/-- A law kept by the ports, the requests handed on and the sign of the terminal is kept by a port transaction. -/
theorem transaction_keeps {P : State → Prop} (hset : ∀ p v s, P s → P (setPort p v s)) (hh : ∀ s l, P s → P { s with handed := l })
    (hs : ∀ s, P s → P (terminalSign s)) (p b) (s : State) (h : P s) : P (takeTransaction p b s) := by
  have hsign : ∀ s, P s → P (signOf p s) := by intro s h; cases p; exact h; exact hs s h
  unfold takeTransaction; split
  · split
    · exact hset _ _ _ (hsign _ h)
    · split
      · unfold takeReadNotices; split
        · exact hset _ _ _ (hsign _ h)
        · exact hsign _ (hset _ _ _ h)
      · split
        · exact hset _ _ _ h
        · have hr : P (frameReceived p s) := frameReceived_keeps hset hs p s h
          unfold takeFrame
          split
          · exact hr
          · split
            · exact hset _ _ _ hr
            · exact hset _ _ _ hr
            · exact hset _ _ _ (hh _ _ hr)
            · exact hset _ _ _ (hh _ _ hr)
  · split
    · exact h
    · exact hset _ _ _ h
  · exact h

/-- A law kept by the ports and the requests handed on is kept by the refusal of an unknown item. -/
theorem takeUnknownItem_keeps {P : State → Prop} (hset : ∀ p v s, P s → P (setPort p v s)) (hh : ∀ s l, P s → P { s with handed := l }) (s : State)
    (h : P s) : P (takeUnknownItem s) := by
  unfold takeUnknownItem; split
  · exact hset _ _ _ (hh _ _ h)
  · exact h

/-- What a law needs to be kept by every command: it is kept by the owner of each, by the ports, and by the queue and the time base. -/
structure KeptByOwners (P : State → Prop) : Prop where
  check : ∀ s, P s → P (sealDomain s)
  set : ∀ p v s, P s → P (setPort p v s)
  hand : ∀ s l, P s → P { s with handed := l }
  sign : ∀ s, P s → P (terminalSign s)
  now : ∀ s n, P s → P { s with now := n }
  pend : ∀ s l, P s → P { s with pending := l }
  tick : ∀ s, P s → P { s with tariff := { s.tariff with clock := s.tariff.clock.tick } }
  pulse : ∀ s, P s → s.settings.k ≠ 0 → P (takePulse s)
  evaluation : ∀ s, P s → s.power = .up → P (takeEvaluation s)
  flagDown : ∀ m n s, P s → P (flagDown m n s).1
  stop : ∀ s, P s → P (Machine.stop s).1
  resume : ∀ s, P s → P (Machine.resume s).1
  clear : ∀ s, P s → P (Machine.clear s).1
  addExtra : ∀ n s, P s → P (Machine.addExtra n s).1
  loadTariffPart : ∀ p c s, P s → P (Machine.loadTariffPart p c s).1
  commitTariff : ∀ n s, P s → P (Machine.commitTariff n s).1
  setClock : ∀ a b c d s, P s → P (Machine.setClock a b c d s).1
  calibrate : ∀ n s, P s → P (Machine.calibrate n s).1
  setIdentity : ∀ m n s, P s → P (Machine.setIdentity m n s).1
  setAirRate : ∀ n s, P s → P (Machine.setAirRate n s).1
  setKeyLead : ∀ n s, P s → P (Machine.setKeyLead n s).1
  setStatusInterval : ∀ n s, P s → P (Machine.setStatusInterval n s).1
  setAlarmVisible : ∀ n s, P s → P (Machine.setAlarmVisible n s).1
  setUrgentSet : ∀ a b c s, P s → P (Machine.setUrgentSet a b c s).1
  setSustainedSet : ∀ a b c s, P s → P (Machine.setSustainedSet a b c s).1
  setSensitivity : ∀ l n s, P s → P (Machine.setSensitivity l n s).1
  clearFaults : ∀ s, P s → P (Machine.clearFaults s).1
  signOn : ∀ s, P s → P (Machine.signOn s).1
  signOff : ∀ s, P s → P (Machine.signOff s).1
  soonClear : ∀ n s, P s → P (Machine.soonClear n s).1
  cancelClear : ∀ s, P s → P (Machine.cancelClear s).1
  noShow : ∀ s, P s → P (Machine.noShow s).1
  setZones : ∀ n s, P s → P (Machine.setZones n s).1
  setOfferMode : ∀ n s, P s → P (Machine.setOfferMode n s).1
  accept : ∀ n s, P s → P (Machine.accept n s).1
  decline : ∀ n s, P s → P (Machine.decline n s).1
  dismiss : ∀ n s, P s → P (Machine.dismiss n s).1
  markRead : ∀ n s, P s → P (Machine.markRead n s).1
  delete : ∀ n s, P s → P (Machine.delete n s).1
  reply : ∀ n c t s, P s → P (Machine.reply n c t s).1
  sendMessage : ∀ c t s, P s → P (Machine.sendMessage none c t s).1
  dismissOutbound : ∀ n s, P s → P (Machine.dismissOutbound n s).1
  setPosition : ∀ a b s, P s → P (Machine.setPosition a b s).1
  setPriority : ∀ a b s, P s → P (Machine.setPriority a b s).1
  alarmCancel : ∀ s, P s → s.power = .up → P (Machine.alarmCancel s).1
  head : ∀ h s, P s → headValid .all h = true → keyAsserted s = false → P (takeHead h s)
  backoffEnd : ∀ n s, P s → P (takeBackoffEnd n s)
  retryLimit : ∀ n s, P s → P (takeRetryLimit n s)
  linkLost : ∀ s, P s → P (takeLinkLost s)
  contention : ∀ s, P s → P (takeContention s)
  reserved : ∀ n s, P s → P (takeReserved n s)
  txEnd : ∀ s, P s → P (takeTransmissionEnd s)
  blindEnd : ∀ s, P s → P (takeBlindEnd s)
  offer : ∀ a o s, P s → offerWellNumbered o = true → P (takeOffer a o s)
  award : ∀ n s, P s → P (takeAward n s)
  lost : ∀ n s, P s → P (takeLost n s)
  withdraw : ∀ n s, P s → P (takeWithdraw n s)
  jobCancel : ∀ n s, P s → P (cancelJob n s)
  poll : ∀ s, P s → P (refreshStatus .poll s)
  message : ∀ a n c t s, n ≠ 0 → P s → P (takeMessage a n c t s)
  alertSeen : ∀ s, P s → s.power = .up → P (takeAlertSeen s)
  standDown : ∀ s, P s → s.power = .up → P (takeStandDown s)
  beaconHold : ∀ n s, P s → P (takeBeaconHold n s)
  levels : ∀ a b s, P s → s.power = .up → P (takeLevels a b s)
  armed : ∀ a b s, P s → P (takeArmed a b s)
  stuck : ∀ a s, P s → P (takeStuck a s)
  cancelExpiry : ∀ s, P s → s.power = .up → P (takeCancelExpiry s)
  cycleStart : ∀ s, P s → P (takeCycleStart s)
  burst : ∀ s, P s → P (takeBurst s)
  resumeExpiry : ∀ s, P s → P (takeResumeExpiry s)
  statusInterval : ∀ s, P s → P (takeStatusInterval s)
  presenceExpiry : ∀ s, P s → P (takePresenceExpiry s)
  deadline : ∀ n s, P s → P (takeDeadline n s)
  awardExpiry : ∀ n s, P s → P (takeAwardExpiry n s)
  lose : ∀ f s, P s → P (losePower f s)
  cold : ∀ s, P s → P (coldStart s)
  warm : ∀ s, P s → P (warmStart s)

/-- A list read by position leaves the state as it is. -/
theorem readPosition_state {α} (b n) (l : List α) (d) (s : State) : (readPosition b n l d s).1 = s := by
  unfold readPosition; (repeat' split) <;> rfl
/-- READ JOB leaves the state as it is. -/
theorem readJob_state (x) (s : State) : (readJob x s).1 = s := by
  unfold readJob readSlot; (repeat' split) <;> rfl

/-- A frame is received only while KEY is released (R144). -/
theorem hears_keyReleased {s : State} {c} (h : hears s c = true) : keyAsserted s = false := by
  unfold hears at h; split at h
  · simp at h; exact h.1.1.1.2
  · exact absurd h (by decide)

/-- A law kept by the owners is kept by the delivery of a frame. -/
theorem deliver_keeps {P : State → Prop} (B : KeptByOwners P) (i : Instr) (s : State) (hup : s.power = .up) (h : P s) : P (deliver i s) := by
  unfold deliver
  split
  · unfold receive; split
    · rename_i hd; simp only [Bool.and_eq_true] at hd
      refine B.head _ _ h ?_ ?_
      · simp [headValid] at hd ⊢; grind
      · exact hears_keyReleased hd.1
    · exact h
  · exact receive_keeps (fun hd s h => B.offer _ _ s h hd) s h
  · exact receive_keeps (fun hd s h => B.award _ s h) s h
  · exact receive_keeps (fun hd s h => B.lost _ s h) s h
  · exact receive_keeps (fun hd s h => B.withdraw _ s h) s h
  · exact receive_keeps (fun hd s h => B.jobCancel _ s h) s h
  · exact receive_keeps (fun hd s h => B.poll s h) s h
  · exact receive_keeps (fun hd s h => B.message _ _ _ _ s (by simp [messageWellFormed] at hd; grind) h) s h
  · unfold receive; split
    · exact B.alertSeen _ h hup
    · exact h
  · unfold receive; split
    · exact B.standDown _ h hup
    · exact h
  · exact receive_keeps (fun hd s h => B.beaconHold _ s h) s h
  · exact h

/-- A law kept by the owners is kept by every command. -/
theorem exec_keeps {P : State → Prop} (B : KeptByOwners P) : ∀ c s t, P s → exec c s = .next t → P t := by
  intro c s t h he
  have rq : ∀ {p i o}, (∀ s, P s → P (o s).1) → P (request p i o s) := fun ho => request_keeps B.set B.hand B.sign ho s h
  cases c
  case start =>
    simp only [exec, execStart] at he; injection he with he; rw [← he]; unfold startAs; split
    · exact B.check _ (B.warm s h)
    · exact B.cold s h
  case vmainLossOrReset f => simp only [exec, execVmainLossOrReset] at he; injection he with he; rw [← he]; exact B.lose _ _ h
  case clockTick =>
    simp only [exec, execClockTick] at he; injection he with he; rw [← he]; split
    · exact B.tick s h
    · exact h
  case distPulse =>
    simp only [exec, execDistPulse] at he
    refine whenUp_keeps B.check h (fun hu => ?_) he
    split
    · exact h
    · rename_i hk; exact B.pulse s h hk
  all_goals refine whenUp_keeps B.check h (fun hu => ?_) he
  case evaluation => exact B.evaluation s h hu
  case flagDown => exact rq (B.flagDown _ _)
  case stop => exact rq B.stop
  case resume => exact rq B.resume
  case clear => exact rq B.clear
  case addExtra => exact rq (B.addExtra _)
  case readTrip => exact rq (fun s h => h)
  case readClosed => exact rq (fun s h => by rw [readPosition_state]; exact h)
  case readTotals => exact rq (fun s h => h)
  case loadTariffPart => exact rq (B.loadTariffPart _ _)
  case commitTariff => exact rq (B.commitTariff _)
  case readTariffCheck => exact rq (fun s h => h)
  case setClock => exact rq (B.setClock _ _ _ _)
  case readClock => exact rq (fun s h => h)
  case calibrate => exact rq (B.calibrate _)
  case setIdentity => exact rq (B.setIdentity _ _)
  case setAirRate => exact rq (B.setAirRate _)
  case setKeyLead => exact rq (B.setKeyLead _)
  case setStatusInterval => exact rq (B.setStatusInterval _)
  case setAlarmVisible => exact rq (B.setAlarmVisible _)
  case setUrgentSet => exact rq (B.setUrgentSet _ _ _)
  case setSustainedSet => exact rq (B.setSustainedSet _ _ _)
  case setSensitivity => exact rq (B.setSensitivity _ _)
  case readInstallation => exact rq (fun s h => h)
  case readEmergency => exact rq (fun s h => h)
  case readFaults => exact rq (fun s h => h)
  case clearFaults => exact rq B.clearFaults
  case setNotices p e => exact rq (fun s h => by unfold setNotices; split; exact B.set _ _ _ h; exact h)
  case readNotices p =>
    have hsign : ∀ s, P s → P (signOf p s) := by intro s h; cases p; exact h; exact B.sign s h
    unfold takeReadNotices; split
    · exact B.set _ _ _ (hsign _ h)
    · exact hsign _ (B.set _ _ _ h)
  case readReply p =>
    have hsign : ∀ s, P s → P (signOf p s) := by intro s h; cases p; exact h; exact B.sign s h
    exact B.set _ _ _ (hsign _ h)
  case signOn => exact rq B.signOn
  case signOff => exact rq B.signOff
  case soonClear => exact rq (B.soonClear _)
  case cancelClear => exact rq B.cancelClear
  case noShow => exact rq B.noShow
  case readJob => exact rq (fun s h => by rw [readJob_state]; exact h)
  case setZones => exact rq (B.setZones _)
  case setOfferMode => exact rq (B.setOfferMode _)
  case readOffer => exact rq (fun s h => by rw [readPosition_state]; exact h)
  case accept => exact rq (B.accept _)
  case decline => exact rq (B.decline _)
  case dismiss => exact rq (B.dismiss _)
  case readMessage => exact rq (fun s h => by rw [readPosition_state]; exact h)
  case markRead => exact rq (B.markRead _)
  case delete => exact rq (B.delete _)
  case reply => exact rq (B.reply _ _ _)
  case sendMessage => exact rq (B.sendMessage _ _)
  case readOutbound => exact rq (fun s h => by rw [readPosition_state]; exact h)
  case dismissOutbound => exact rq (B.dismissOutbound _)
  case setPosition => exact rq (B.setPosition _ _)
  case setPriority => exact rq (B.setPriority _ _)
  case readPriorities => exact rq (fun s h => h)
  case readStatus => exact rq (fun s h => h)
  case alarmCancel =>
    unfold request
    split
    · unfold holdReply setBuffer
      apply B.set
      unfold arrived
      split
      · exact B.alarmCancel _ (B.hand _ _ h) hu
      · refine B.alarmCancel _ (frameReceived_keeps B.set B.sign _ _ h) ?_
        exact (frameReceived_frame .terminal s .power (by decide)).trans hu
    · exact frameReceived_keeps B.set B.sign _ _ h
  case airFrameDropped fr b =>
    unfold takeAirFrame; split
    · exact h
    · split
      · exact h
      · exact deliver_keeps B _ s hu h
  case cycleHead a hd => exact deliver_keeps B (.cycleHead a hd) s hu h
  case backoffEnd => exact B.backoffEnd _ s h
  case retryLimitReached => exact B.retryLimit _ s h
  case linkLost => exact B.linkLost s h
  case contentionSlot => exact B.contention s h
  case reservedSlot => exact B.reserved _ s h
  case transmissionEnd => exact B.txEnd s h
  case offer a o => exact deliver_keeps B (.offer a o) s hu h
  case award a o => exact deliver_keeps B (.award a o) s hu h
  case lost a o => exact deliver_keeps B (.lost a o) s hu h
  case withdraw a o => exact deliver_keeps B (.withdraw a o) s hu h
  case jobCancel a o => exact deliver_keeps B (.jobCancel a o) s hu h
  case poll a => exact deliver_keeps B (.poll a) s hu h
  case message a b c d => exact deliver_keeps B (.message a b c d) s hu h
  case alertSeen a => exact deliver_keeps B (.alertSeen a) s hu h
  case standDown a => exact deliver_keeps B (.standDown a) s hu h
  case beaconHold a n => exact deliver_keeps B (.beaconHold a n) s hu h
  case alarmLineLevel => exact B.levels _ _ s h hu
  case lineArmed => exact B.armed _ _ s h
  case alarmLineStuck => exact B.stuck _ s h
  case cancelWindowExpiry => exact B.cancelExpiry s h hu
  case beaconCycleStart => exact B.cycleStart s h
  case beaconBurst => exact B.burst s h
  case blindTransmissionEnd => exact B.blindEnd s h
  case resumeWindowExpiry => exact B.resumeExpiry s h
  case statusIntervalExpiry => exact B.statusInterval s h
  case presenceTimerExpiry => exact B.presenceExpiry s h
  case deadlineExpiry => exact B.deadline _ s h
  case awardTimerExpiry => exact B.awardExpiry _ s h
  case requestFrameReceived p b => exact transaction_keeps B.set B.hand B.sign p b s h

/-- A law kept by the owners is kept by every step. -/
theorem keeps_of_owners {P : State → Prop} (B : KeptByOwners P) : ∀ s t, P s → step s = .next t → P t := step_keeps B.pend B.now
  (fun _ _ h hs => whenUp_keeps B.check h (fun _ => takeUnknownItem_keeps B.set B.hand _ h) hs) (exec_keeps B)

/-- A law that depends on the listed parts of the state alone. -/
def DependsOn (D : List Field) (P : State → Prop) : Prop := ∀ s t, (∀ f ∈ D, f.same s t) → P s → P t
/-- A law is kept by whatever changes none of the parts it depends on. -/
theorem DependsOn.keep {D P F s t} (d : DependsOn D P) (h : changesOnly F s t) (hd : ∀ f ∈ D, f ∉ F) (p : P s) : P t := d s t (fun f hf => h f (hd f hf)) p

end Sys2Proof.Machine
end

