-- ==== Sys2Proof/Laws/Messages.lean ====
section
/-! SUPPORT. The local number of an outbound message (R117): the search for it finds the first free one. -/

namespace Sys2Proof.Machine

open Sys2Proof

/-- The local number after n, in one expression (R117). -/
theorem nextLocalAfter_eq {n : Nat} (h1 : 1 ≤ n) (h2 : n ≤ 255) : nextLocalAfter n = n % 255 + 1 := by
  unfold nextLocalAfter
  split <;> omega

/-- The search, from the j-th number on with all before it taken, finds the first free one if it has steps enough for a free one. -/
theorem freeLocal_from (room : List Outbound) (m : Nat) : ∀ fuel j,
    (∀ i < j, ∃ o ∈ room, o.localNumber = (m - 1 + i) % 255 + 1) →
    (∃ i, j ≤ i ∧ i < j + fuel ∧ ∀ o ∈ room, o.localNumber ≠ (m - 1 + i) % 255 + 1) →
    ∃ k, freeLocal room fuel ((m - 1 + j) % 255 + 1) = (m - 1 + k) % 255 + 1 ∧ (∀ o ∈ room, o.localNumber ≠ (m - 1 + k) % 255 + 1) ∧
      ∀ i < k, ∃ o ∈ room, o.localNumber = (m - 1 + i) % 255 + 1 := by
  intro fuel
  induction fuel with
  | zero =>
    rintro j _ ⟨i, h1, h2, _⟩
    omega
  | succ f ih =>
    intro j h ⟨i, h1, h2, h3⟩
    unfold freeLocal
    by_cases ha : room.any (fun o => decide (o.localNumber = (m - 1 + j) % 255 + 1)) = true
    · have hj : ∃ o ∈ room, o.localNumber = (m - 1 + j) % 255 + 1 := by simpa using ha
      have hn : nextLocalAfter ((m - 1 + j) % 255 + 1) = (m - 1 + (j + 1)) % 255 + 1 := by
        rw [nextLocalAfter_eq (by omega) (by omega)]
        omega
      rw [if_pos ha, hn]
      refine ih (j + 1) ?_ ⟨i, ?_, by omega, h3⟩
      · intro i hi
        rcases Nat.lt_succ_iff_lt_or_eq.1 hi with hlt | rfl
        · exact h i hlt
        · exact hj
      · rcases Nat.lt_or_eq_of_le h1 with hlt | rfl
        · exact hlt
        · obtain ⟨o, ho, he⟩ := hj
          exact absurd he (h3 o ho)
    · rw [if_neg ha]
      exact ⟨j, rfl, by simpa using ha, h⟩

/-- Of seven numbers in a row, six entries leave one free. -/
theorem free_of_seven (room : List Outbound) (m : Nat) (hl : room.length ≤ 6) :
    ∃ i, i < 7 ∧ ∀ o ∈ room, o.localNumber ≠ (m - 1 + i) % 255 + 1 := by
  by_contra hc
  push Not at hc
  have hsub : (List.range 7).map (fun i => (m - 1 + i) % 255 + 1) ⊆ room.map Outbound.localNumber := by
    intro x hx
    obtain ⟨i, hi, rfl⟩ := List.mem_map.1 hx
    obtain ⟨o, ho, h⟩ := hc i (List.mem_range.1 hi)
    exact List.mem_map.2 ⟨o, ho, h⟩
  have hn : ((List.range 7).map (fun i => (m - 1 + i) % 255 + 1)).Nodup := by
    refine List.Nodup.map_on ?_ List.nodup_range
    intro a ha b hb h
    rw [List.mem_range] at ha hb
    omega
  have := (hn.subperm hsub).length_le
  rw [List.length_map, List.length_map, List.length_range] at this
  omega

/-- The local number that a new entry takes: the first free one from m on, 255 followed by 1 (R117). -/
theorem freeLocal_first (room : List Outbound) (m : Nat) (hl : room.length ≤ 6) (h1 : 1 ≤ m) (h2 : m ≤ 255) :
    ∃ k, freeLocal room 7 m = (m - 1 + k) % 255 + 1 ∧ (∀ o ∈ room, o.localNumber ≠ (m - 1 + k) % 255 + 1) ∧
      ∀ i < k, ∃ o ∈ room, o.localNumber = (m - 1 + i) % 255 + 1 := by
  obtain ⟨i, hi, h⟩ := free_of_seven room m hl
  have hm : (m - 1 + 0) % 255 + 1 = m := by omega
  have hk := freeLocal_from room m 7 0 (by simp) ⟨i, by omega, by omega, h⟩
  rwa [hm] at hk

end Sys2Proof.Machine
end

