-- ==== Sys2Proof/Laws/Pool.lean ====
section
/-! SUPPORT. What the operations of the Text Block Pool (05) do, block by block. -/

namespace Sys2Proof.Machine

open Sys2Proof

/-- The holder of a block after one block has been replaced. -/
theorem blockOwner_set (pool : List Block) (i n : Nat) (b : Block) : blockOwner (pool.set i b) n = if i = n ∧ n < pool.length then b.owner else blockOwner pool n := by
  unfold blockOwner
  rw [List.getElem?_set]
  by_cases h : i = n
  · subst h
    by_cases hl : i < pool.length
    · simp [hl]
    · simp [hl]
  · simp [h]

/-- A block with a holder is one of the pool. -/
theorem blockOwner_lt {pool : List Block} {n t} (h : blockOwner pool n = some t) : n < pool.length := by
  unfold blockOwner at h
  rcases Nat.lt_or_ge n pool.length with hn | hn
  · exact hn
  · rw [List.getElem?_eq_none hn] at h; cases h

/-- A release leaves the pool its size. -/
theorem releaseBlocks_length (bs pool) : (releaseBlocks bs pool).length = pool.length := by
  induction bs generalizing pool with
  | nil => rfl
  | cons b bs ih => unfold releaseBlocks; rw [ih]; simp

/-- A release frees the blocks named and no other (R83). -/
theorem releaseBlocks_owner (bs) (pool : List Block) (n) (hb : ∀ b ∈ bs, b < pool.length) : blockOwner (releaseBlocks bs pool) n = if n ∈ bs then none else blockOwner pool n := by
  induction bs generalizing pool with
  | nil => simp [releaseBlocks]
  | cons b bs ih =>
    unfold releaseBlocks
    rw [ih _ (by intro x hx; simp; exact hb x (List.mem_cons_of_mem _ hx)), blockOwner_set]
    have hbl := hb b (List.mem_cons_self ..)
    by_cases h1 : n ∈ bs
    · simp [h1]
    · by_cases h2 : b = n
      · subst h2; simp [hbl, h1]
      · simp [h1, h2]; intro h; exact absurd h.symm h2

/-- A grant leaves the pool its size. -/
theorem writeBlocks_length (h bs txt pool) : (writeBlocks h bs txt pool).length = pool.length := by
  induction bs generalizing pool txt with
  | nil => rfl
  | cons b bs ih => unfold writeBlocks; rw [ih]; simp

/-- A grant gives the blocks named to the holder and no other (R80). -/
theorem writeBlocks_owner (h bs txt) (pool : List Block) (n) (hb : ∀ b ∈ bs, b < pool.length) : blockOwner (writeBlocks h bs txt pool) n = if n ∈ bs then some h else blockOwner pool n := by
  induction bs generalizing pool txt with
  | nil => simp [writeBlocks]
  | cons b bs ih =>
    unfold writeBlocks
    rw [ih _ _ (by intro x hx; simp; exact hb x (List.mem_cons_of_mem _ hx)), blockOwner_set]
    have hbl := hb b (List.mem_cons_self ..)
    by_cases h1 : n ∈ bs
    · simp [h1]
    · by_cases h2 : b = n
      · subst h2; simp [hbl, h1]
      · simp [h1, h2]; intro h; exact absurd h.symm h2

/-- A hand-over leaves the pool its size. -/
theorem retagBlocks_length (h bs pool) : (retagBlocks h bs pool).length = pool.length := by
  induction bs generalizing pool with
  | nil => rfl
  | cons b bs ih => unfold retagBlocks; rw [ih]; simp

/-- The holder of a block after one tag has been replaced. -/
theorem blockOwner_modify (pool : List Block) (i n : Nat) (h) : blockOwner (pool.modify i (fun b => { b with owner := some h })) n = if i = n ∧ n < pool.length then some h else blockOwner pool n := by
  unfold blockOwner
  rw [List.getElem?_modify]
  by_cases e : i = n
  · subst e
    by_cases hl : i < pool.length
    · simp [hl]
    · simp [hl]
  · simp [e]

/-- A hand-over gives the blocks named to the new holder and no other (R84). -/
theorem retagBlocks_owner (h bs) (pool : List Block) (n) (hb : ∀ b ∈ bs, b < pool.length) : blockOwner (retagBlocks h bs pool) n = if n ∈ bs then some h else blockOwner pool n := by
  induction bs generalizing pool with
  | nil => simp [retagBlocks]
  | cons b bs ih =>
    unfold retagBlocks
    rw [ih _ (by intro x hx; simp; exact hb x (List.mem_cons_of_mem _ hx)), blockOwner_modify]
    have hbl := hb b (List.mem_cons_self ..)
    by_cases h1 : n ∈ bs
    · simp [h1]
    · by_cases h2 : b = n
      · subst h2; simp [hbl, h1]
      · simp [h1, h2]; intro h; exact absurd h.symm h2

/-- The blocks that a grant chooses are free blocks of the pool, each once (R80). -/
theorem freeNumbers_take_free (pool : List Block) (k) : (∀ b ∈ (freeNumbers pool).take k, b < pool.length ∧ blockOwner pool b = none) ∧ ((freeNumbers pool).take k).Nodup := by
  constructor
  · intro b hb
    have := List.mem_of_mem_take hb
    unfold freeNumbers at this
    simp only [List.mem_filter, List.mem_range] at this
    refine ⟨this.1, ?_⟩
    have h2 := this.2
    unfold blockOwner
    rw [List.getElem?_eq_getElem this.1] at h2 ⊢
    simpa using h2
  · refine List.Nodup.sublist (List.take_sublist _ _) ?_
    unfold freeNumbers; exact List.nodup_range.sublist List.filter_sublist

/-- There are as many free numbers as the free count (R79). -/
theorem freeNumbers_length (pool : List Block) : (freeNumbers pool).length = freeCount pool := by
  unfold freeNumbers freeCount
  rw [← List.countP_eq_length_filter]
  have e : pool = (List.range pool.length).map (fun i => (pool[i]?).getD ⟨none, []⟩) := by
    apply List.ext_getElem
    · simp
    · intro n h1 h2; simp [List.getElem?_eq_getElem h1]
  conv => rhs; rw [e]
  rw [List.countP_map]
  apply List.countP_congr
  intro i hi; simp at hi; simp [List.getElem?_eq_getElem hi]

/-- A grant touches no block but those named. -/
theorem writeBlocks_other (h bs txt) (pool : List Block) (n) (hn : n ∉ bs) : (writeBlocks h bs txt pool)[n]? = pool[n]? := by
  induction bs generalizing pool txt with
  | nil => rfl
  | cons b bs ih =>
    unfold writeBlocks
    rw [ih _ _ (fun hh => hn (List.mem_cons_of_mem _ hh)), List.getElem?_set_ne]
    rintro rfl; exact hn (List.mem_cons_self ..)

/-- The text written into blocks stands in them, 32 characters each (R79). -/
theorem writeBlocks_chars (h : Holder) (bs : List Nat) (txt : List Byte) (pool : List Block) (hnd : bs.Nodup) (hb : ∀ b ∈ bs, b < pool.length) :
    (bs.flatMap (fun n => ((writeBlocks h bs txt pool)[n]?.map Block.chars).getD [])) = txt.take (32 * bs.length) := by
  induction bs generalizing pool txt with
  | nil => simp
  | cons b bs ih =>
    rw [List.nodup_cons] at hnd
    simp only [List.flatMap_cons]
    have e1 : (writeBlocks h (b :: bs) txt pool)[b]? = some ⟨some h, txt.take 32⟩ := by
      unfold writeBlocks
      rw [writeBlocks_other _ _ _ _ _ hnd.1]
      rw [List.getElem?_set_self (hb b (List.mem_cons_self ..))]
    rw [e1]
    have e2 : writeBlocks h (b :: bs) txt pool = writeBlocks h bs (txt.drop 32) (pool.set b ⟨some h, txt.take 32⟩) := rfl
    rw [e2, ih _ _ hnd.2 (by intro x hx; simp; exact hb x (List.mem_cons_of_mem _ hx))]
    simp only [Option.map_some, Option.getD_some, List.length_cons]
    rw [show 32 * (bs.length + 1) = 32 + 32 * bs.length by omega, List.take_add]

end Sys2Proof.Machine
end

