-- ==== Sys2Proof/Laws/Queue.lean ====
section
/-! SUPPORT. What the owners' operations on the Uplink Queue (R73, R99, R104, R114, R138, R154, R155) change and what they leave in it,
and what the end of a transmission and its cut-off (R128, R160, R163) do. -/

namespace Sys2Proof.Machine

open Sys2Proof

/-! ## They change the queue and the arrival counter, and nothing else of the radio -/

/-- A creation. -/
theorem Radio.create_rest (c : Content) (r : Radio) :
    r.create c = { r with queue := (r.create c).queue, nextArrival := (r.create c).nextArrival } := rfl

/-- A creation in a general position. -/
theorem Radio.createGeneral_rest (c : Content) (r : Radio) :
    r.createGeneral c = { r with queue := (r.createGeneral c).queue, nextArrival := (r.createGeneral c).nextArrival } := by
  unfold Radio.createGeneral
  split <;> rfl

/-- A creation in a position of its own. -/
theorem Radio.createReserved_rest (c : Content) (r : Radio) :
    r.createReserved c = { r with queue := (r.createReserved c).queue, nextArrival := (r.createReserved c).nextArrival } := by
  unfold Radio.createReserved
  split <;> rfl

/-- A refresh. -/
theorem Radio.refreshReserved_rest (c : Content) (r : Radio) :
    r.refreshReserved c = { r with queue := (r.refreshReserved c).queue, nextArrival := (r.refreshReserved c).nextArrival } := by
  unfold Radio.refreshReserved
  split <;> rfl

/-- A removal changes the queue alone. -/
theorem Radio.removeOwned_rest (k : Kind) (r : Radio) : r.removeOwned k = { r with queue := (r.removeOwned k).queue } := rfl

/-- A DECLINE. -/
theorem Radio.queueDecline_rest (n : Nat) (reason : DeclineReason) (r : Radio) :
    r.queueDecline n reason = { r with queue := (r.queueDecline n reason).queue, nextArrival := (r.queueDecline n reason).nextArrival } := by
  unfold Radio.queueDecline
  split
  · rfl
  · exact r.createGeneral_rest _

/-- A RELEASE. -/
theorem Radio.queueRelease_rest (n : Nat) (time : ClockReading) (r : Radio) :
    r.queueRelease n time = { r with queue := (r.queueRelease n time).queue, nextArrival := (r.queueRelease n time).nextArrival } := by
  unfold Radio.queueRelease
  split
  · rfl
  · exact r.createGeneral_rest _

/-- A RECEIPT. -/
theorem Radio.queueReceipt_rest (n : Nat) (st : ReceiptStatus) (r : Radio) :
    r.queueReceipt n st = { r with queue := (r.queueReceipt n st).queue, nextArrival := (r.queueReceipt n st).nextArrival } := by
  unfold Radio.queueReceipt
  split
  · rfl
  · exact r.createGeneral_rest _

/-! ## What stands in the queue afterwards -/

/-- Every entry stays where a DECLINE is queued (R99). -/
theorem Radio.queueDecline_mem (n : Nat) (reason : DeclineReason) (r : Radio) : ∀ e ∈ r.queue, e ∈ (r.queueDecline n reason).queue := by
  intro e he
  unfold Radio.queueDecline Radio.createGeneral Radio.create
  split
  · exact he
  · split
    · exact List.mem_append_left _ he
    · exact he

/-- A DECLINE queued is held, unless no general position was free (R99). -/
theorem Radio.queueDecline_held (n : Nat) (reason : DeclineReason) (r : Radio) :
    (r.queueDecline n reason).hasDecline n = true ∨ 8 ≤ (r.queueDecline n reason).generalCount := by
  unfold Radio.queueDecline Radio.createGeneral Radio.create
  split
  · rename_i h
    exact Or.inl h
  · split
    · left
      simp [Radio.hasDecline, newEntry]
    · rename_i h
      right
      simpa [Radio.generalFree, Config.generalMax] using h

/-- An entry of the kind is held after a refresh (R73, R138). -/
theorem Radio.refreshReserved_holds (c : Content) (r : Radio) : (r.refreshReserved c).holds (contentKind c) = true := by
  unfold Radio.refreshReserved
  split
  · rename_i h
    simp only [Radio.holds, List.any_eq_true, List.any_map] at h ⊢
    obtain ⟨e, he, hk⟩ := h
    refine ⟨e, he, ?_⟩
    have hk' : e.kind = contentKind c := of_decide_eq_true hk
    simp only [Function.comp, hk', if_true, Entry.refresh]
    split
    · exact decide_eq_true hk'
    · split <;> exact decide_eq_true rfl
  · simp only [Radio.holds, Radio.create, List.any_append, Bool.or_eq_true]
    exact Or.inr (by simp [newEntry, Entry.kind])

/-- Kinds held stay held where a DECLINE is queued. -/
theorem Radio.queueDecline_holds {k : Kind} {r : Radio} (n : Nat) (reason : DeclineReason) (h : r.holds k = true) :
    (r.queueDecline n reason).holds k = true := by
  unfold Radio.holds at h ⊢
  rw [List.any_eq_true] at h ⊢
  obtain ⟨e, he, hk⟩ := h
  exact ⟨e, r.queueDecline_mem n reason e he, hk⟩

/-- The STATUS entry after its content has been replaced: with the reason given, or leaving with that content waiting (R73, R154, R155). -/
theorem Radio.refreshStatus_entry (reason : StatusReason) (r : Radio) :
    ∃ e ∈ (r.refreshReserved (.status reason)).queue,
      e.content = .status reason ∨ (e.kind = .status ∧ e.leaving = true ∧ e.deferred = some (.status reason)) := by
  unfold Radio.refreshReserved
  split
  · rename_i h
    simp only [Radio.holds, List.any_eq_true] at h
    obtain ⟨e, he, hk⟩ := h
    have hk' : e.kind = contentKind (.status reason) := of_decide_eq_true hk
    refine ⟨_, List.mem_map.2 ⟨e, he, rfl⟩, ?_⟩
    rw [if_pos hk']
    unfold Entry.refresh
    split
    · rename_i hl
      exact Or.inr ⟨hk', hl, rfl⟩
    · split <;> exact Or.inl rfl
  · exact ⟨_, List.mem_append_right _ (List.mem_cons_self ..), Or.inl rfl⟩

/-- The re-check of R94 leaves held what was held. -/
theorem recheck_holds {k : Kind} {s : State} (h : s.radio.holds k = true) : (recheck s).radio.holds k = true := by
  show (List.foldl _ s.radio s.offers.entries).holds k = true
  generalize s.radio = r at h
  induction s.offers.entries generalizing r with
  | nil => exact h
  | cons o rest ih =>
    rw [List.foldl_cons]
    apply ih
    split
    · exact Radio.queueDecline_holds _ _ h
    · exact h

/-- A change of the Duty Unit leaves a STATUS entry in the queue (R73). -/
theorem dutyChanged_holds (reason : StatusReason) (s : State) : (dutyChanged reason s).radio.holds .status = true :=
  recheck_holds (Radio.refreshReserved_holds (.status reason) _)

/-- The decline reason of R91 as the re-check and as the statements give it. -/
theorem entryReason_eq_filterReason (s : State) (stackable : Bool) : entryReason s stackable = filterReason s stackable := by
  unfold entryReason filterReason
  split
  · rfl
  · unfold inEmergency
    by_cases h1 : s.alarm.record.state = .normal <;> simp [h1]
    by_cases h2 : s.duty.presence = .present <;> simp [h2]
    unfold offerFits
    cases h3 : s.duty.state <;> simp
    cases stackable <;> cases h4 : s.duty.next <;> simp

/-- The entry that goes first is one of those offered (R157, R158). -/
theorem firstOf_mem (l : Levels) : ∀ (es : List Entry) (e : Entry), firstOf l es = some e → e ∈ es := by
  intro es
  induction es with
  | nil => intro e h; cases h
  | cons x rest ih =>
    intro e h
    unfold firstOf at h
    split at h
    · injection h with h
      rw [← h]
      exact List.mem_cons_self ..
    · rename_i b hb
      injection h with h
      split at h
      · rw [← h]
        exact List.mem_cons_of_mem _ (ih b hb)
      · rw [← h]
        exact List.mem_cons_self ..

/-! ## The general positions (R154) -/

/-- The general positions are those of the four kinds without a position of their own. -/
theorem Radio.generalCount_eq (r : Radio) : r.generalCount =
    r.queue.countP (fun e => decide (e.kind = .jobEvent ∨ e.kind = .receipt ∨ e.kind = .decline ∨ e.kind = .driverMessage)) := by
  unfold Radio.generalCount
  congr 1
  funext e
  cases e.kind <;> simp [reservedKind]

/-! ## The re-check of R94 only adds entries at the end of the queue -/

/-- Entries of fresh arrival orders are added at the end of the queue, and nothing else of the radio changes. -/
def Radio.Grows (r x : Radio) : Prop :=
  (∃ l, x.queue = r.queue ++ l ∧ ∀ e ∈ l, r.nextArrival ≤ e.arrival) ∧ r.nextArrival ≤ x.nextArrival ∧
  x = { r with queue := x.queue, nextArrival := x.nextArrival }

theorem Radio.Grows.refl (r : Radio) : r.Grows r := ⟨⟨[], by simp⟩, Nat.le_refl _, rfl⟩

theorem Radio.Grows.trans {a b c : Radio} (h : a.Grows b) (k : b.Grows c) : a.Grows c := by
  obtain ⟨⟨l, h1, h2⟩, h3, h4⟩ := h
  obtain ⟨⟨m, k1, k2⟩, k3, k4⟩ := k
  refine ⟨⟨l ++ m, by rw [k1, h1, List.append_assoc], ?_⟩, Nat.le_trans h3 k3, by rw [k4, h4]⟩
  intro e he
  rcases List.mem_append.1 he with h | h
  · exact h2 _ h
  · exact Nat.le_trans h3 (k2 _ h)

/-- A DECLINE queued, or not (R99). -/
theorem Radio.queueDecline_grows (n : Nat) (reason : DeclineReason) (r : Radio) : r.Grows (r.queueDecline n reason) := by
  unfold Radio.queueDecline Radio.createGeneral
  split
  · exact Radio.Grows.refl r
  · split
    · exact ⟨⟨[newEntry _ _], rfl, by simp [newEntry]⟩, Nat.le_succ _, rfl⟩
    · exact Radio.Grows.refl r

/-- The re-check (R94). -/
theorem recheck_grows (s : State) : s.radio.Grows (recheck s).radio := by
  show s.radio.Grows (List.foldl _ s.radio s.offers.entries)
  generalize s.offers.entries = es
  generalize s.radio = r
  induction es generalizing r with
  | nil => exact Radio.Grows.refl r
  | cons o es ih =>
    simp only [List.foldl_cons]
    refine Radio.Grows.trans ?_ (ih _)
    split
    · exact Radio.queueDecline_grows _ _ _
    · exact Radio.Grows.refl _

/-- What the queueing of the DECLINEs of a re-check does (R94, R99): it adds new entries at the end of the queue, with the numbers and reasons of
offers that fail, oldest first, none for a number that a DECLINE held already names; and each offer that fails has its DECLINE in the queue, unless the
general positions are all taken. -/
theorem queueDeclines (f : Offer → Option DeclineReason) : ∀ (es : List Offer) (r x : Radio),
    x = es.foldl (fun r o => match f o with
      | some reason => r.queueDecline o.number reason
      | none => r) r →
    r.generalCount ≤ x.generalCount ∧
    ∃ l, x.queue = r.queue ++ l ∧
      (l.map Entry.content).Sublist (es.filterMap (fun o => (f o).map (fun reason => .decline o.number reason))) ∧
      (∀ y ∈ l, ∃ a, r.nextArrival ≤ a ∧ y = newEntry y.content a) ∧
      (∀ n, r.hasDecline n = true → x.hasDecline n = true ∧ ∀ y ∈ l, ∀ reason, y.content ≠ .decline n reason) ∧
      ∀ o ∈ es, (f o).isSome → x.hasDecline o.number = true ∨ 8 ≤ x.generalCount := by
  intro es
  induction es with
  | nil =>
    rintro r x rfl
    exact ⟨Nat.le_refl _, [], by simp⟩
  | cons o rest ih =>
    intro r x hx
    rw [List.foldl_cons] at hx
    cases hf : f o with
    | none =>
      rw [hf] at hx
      obtain ⟨h0, l, h1, h2, h3, h4, h5⟩ := ih r x hx
      refine ⟨h0, l, h1, ?_, h3, h4, ?_⟩
      · rw [List.filterMap_cons_none (by rw [hf]; rfl)]
        exact h2
      · intro p hp hs
        rcases List.mem_cons.1 hp with rfl | hp
        · rw [hf] at hs
          cases hs
        · exact h5 p hp hs
    | some reason =>
      rw [hf] at hx
      simp only at hx
      have hsub : ∀ {l : List Content}, l.Sublist (rest.filterMap (fun o => (f o).map (fun reason => .decline o.number reason))) →
          l.Sublist ((o :: rest).filterMap (fun o => (f o).map (fun reason => .decline o.number reason))) := by
        intro l hl
        rw [List.filterMap_cons_some (by rw [hf]; rfl)]
        exact hl.cons _
      by_cases hd : r.hasDecline o.number = true
      · have hq : r.queueDecline o.number reason = r := by rw [Radio.queueDecline, if_pos hd]
        rw [hq] at hx
        obtain ⟨h0, l, h1, h2, h3, h4, h5⟩ := ih r x hx
        refine ⟨h0, l, h1, hsub h2, h3, h4, fun p hp hs => ?_⟩
        rcases List.mem_cons.1 hp with rfl | hp
        · exact Or.inl (h4 _ hd).1
        · exact h5 p hp hs
      by_cases hg : r.generalFree = true
      · have hq : r.queueDecline o.number reason = r.create (.decline o.number reason) := by
          rw [Radio.queueDecline, if_neg hd, Radio.createGeneral, if_pos hg]
        rw [hq] at hx
        obtain ⟨h0, l, h1, h2, h3, h4, h5⟩ := ih _ x hx
        have hc : (r.create (.decline o.number reason)).hasDecline o.number = true := by
          simp [Radio.hasDecline, Radio.create, newEntry]
        refine ⟨Nat.le_trans (by simp [Radio.generalCount, Radio.create]) h0, newEntry (.decline o.number reason) r.nextArrival :: l,
          by rw [h1]; simp [Radio.create], ?_, ?_, ?_, ?_⟩
        · rw [List.filterMap_cons_some (by rw [hf]; rfl)]
          exact h2.cons_cons _
        · intro y hy
          rcases List.mem_cons.1 hy with rfl | hy
          · exact ⟨_, Nat.le_refl _, rfl⟩
          · obtain ⟨a, ha, hy⟩ := h3 y hy
            exact ⟨a, Nat.le_trans (Nat.le_succ _) ha, hy⟩
        · intro n hn
          have hn' : (r.create (.decline o.number reason)).hasDecline n = true := by
            simp only [Radio.hasDecline, Radio.create, List.any_append, Bool.or_eq_true]
            exact Or.inl hn
          refine ⟨(h4 n hn').1, fun y hy other => ?_⟩
          rcases List.mem_cons.1 hy with rfl | hy
          · intro he
            injection he with he
            exact hd (he ▸ hn)
          · exact (h4 n hn').2 y hy other
        · intro p hp hs
          rcases List.mem_cons.1 hp with rfl | hp
          · exact Or.inl (h4 _ hc).1
          · exact h5 p hp hs
      · have hq : r.queueDecline o.number reason = r := by
          rw [Radio.queueDecline, if_neg hd, Radio.createGeneral, if_neg hg]
        rw [hq] at hx
        obtain ⟨h0, l, h1, h2, h3, h4, h5⟩ := ih r x hx
        refine ⟨h0, l, h1, hsub h2, h3, h4, fun p hp hs => ?_⟩
        rcases List.mem_cons.1 hp with rfl | hp
        · refine Or.inr (Nat.le_trans ?_ h0)
          simpa [Radio.generalFree, Config.generalMax] using hg
        · exact h5 p hp hs

/-! ## The end of a transmission and the cut-off (R128, R155, R160, R163) -/

/-- The settling of an entry changes the queue and the arrival counter alone. -/
theorem Radio.settleEntry_rest (n : Nat) (st : EntryState) (r : Radio) :
    r.settleEntry n st = { r with queue := (r.settleEntry n st).queue, nextArrival := (r.settleEntry n st).nextArrival } := by
  unfold Radio.settleEntry Radio.create
  split <;> try rfl
  split <;> try rfl
  split <;> rfl

/-- The release of KEY: reception is blanked for 20 ms, the first blind frame that waits goes out, and no slot transmission is in progress. -/
theorem releaseKey_radio (s : State) :
    (releaseKey s).radio = { s.radio with
      tx := (releaseKey s).radio.tx, blindWaiting := s.radio.blindWaiting.tail, blankedUntil := some (s.now + 20) } ∧
    (s.radio.blindWaiting = [] → (releaseKey s).radio.tx = none) ∧ slotTransmission (releaseKey s) = false := by
  unfold releaseKey sendNextBlind
  rcases hb : s.radio.blindWaiting with _ | ⟨f, rest⟩ <;> simp [transmit, slotTransmission, hb]

/-- The cut-off: it ends a slot transmission, and without one changes nothing (R128). -/
theorem cutOff_radio (s : State) :
    (cutOff s).radio = { s.radio with
      queue := (cutOff s).radio.queue, nextArrival := (cutOff s).radio.nextArrival, tx := (cutOff s).radio.tx
      blankedUntil := (cutOff s).radio.blankedUntil, blindWaiting := (cutOff s).radio.blindWaiting } ∧
    (slotTransmission s = false → cutOff s = s) ∧ slotTransmission (cutOff s) = false ∧
    (slotTransmission s = true →
      (cutOff s).radio.blankedUntil = some (s.now + 20) ∧ (s.radio.blindWaiting = [] → (cutOff s).radio.tx = none)) ∧
    ∀ n, s.radio.tx.map Transmission.kind = some (.entry n) →
      (cutOff s).radio.queue = (s.radio.settleEntry n .ready).queue ∧
      (cutOff s).radio.nextArrival = (s.radio.settleEntry n .ready).nextArrival := by
  unfold cutOff
  rcases htx : s.radio.tx.map Transmission.kind with _ | k
  · simp [slotTransmission, htx]
  · cases k with
    | blind => simp [slotTransmission, htx]
    | reservationRequest =>
      obtain ⟨h1, h2, h3⟩ := releaseKey_radio s
      refine ⟨?_, by simp [slotTransmission, htx], h3, fun _ => ⟨by rw [h1], h2⟩, by simp⟩
      show (releaseKey s).radio = _
      rw [h1]
    | entry m =>
      obtain ⟨h1, h2, h3⟩ := releaseKey_radio { s with radio := s.radio.settleEntry m .ready }
      have hb : (s.radio.settleEntry m .ready).blindWaiting = s.radio.blindWaiting := by rw [Radio.settleEntry_rest]
      refine ⟨?_, by simp [slotTransmission, htx], h3, fun _ => ⟨by simp only; rw [h1], by intro h; apply h2; simp only [hb, h]⟩, ?_⟩
      · show (releaseKey _).radio = _
        simp only
        rw [h1]
        simp only
        rw [Radio.settleEntry_rest]
      · intro n hn
        injection hn with hn
        injection hn with hn
        subst hn
        simp only
        rw [h1]
        exact ⟨rfl, rfl⟩

/-! ## The making of an ALERT (R138, R139) -/

/-- An ALERT made, queued or blind, touches no entry of another kind: whatever is said of those alone holds of as many entries as before
(R138, R139). -/
theorem makeAlert_countP (cancelled : Bool) (status : Nat) (s : State) (p : Entry → Bool) (hp : ∀ e : Entry, e.kind = .alert → p e = false) :
    (makeAlert cancelled status s).radio.queue.countP p = s.radio.queue.countP p := by
  have refreshed : (s.radio.refreshReserved (.alert cancelled)).queue.countP p = s.radio.queue.countP p := by
    unfold Radio.refreshReserved
    split
    · rw [List.countP_map]
      congr 1
      funext e
      by_cases h : e.kind = .alert
      · have hk : (e.refresh (.alert cancelled)).kind = .alert := by
          unfold Entry.refresh
          split
          · exact h
          · split <;> rfl
        simp [Function.comp, contentKind, h, hp e h, hp _ hk]
      · simp [Function.comp, contentKind, h]
    · simp [Radio.create, hp (newEntry (.alert cancelled) _) rfl]
  unfold makeAlert
  split
  · have blind : ∀ z : State, (sendBlind status z).radio.queue = z.radio.queue := by
      intro z
      unfold sendBlind
      split
      · split <;> rfl
      · rfl
    rw [blind]
    show (s.radio.queue.filterMap _).countP p = _
    induction s.radio.queue with
    | nil => rfl
    | cons e es ih =>
      by_cases h : e.kind = .alert
      · by_cases h3 : e.state = .sending
        · rw [List.filterMap_cons_some (by rw [if_pos h, if_pos h3]), List.countP_cons, List.countP_cons, ih, hp e h]
          have : p { e with removed := true, deferred := none } = false := hp _ h
          rw [this]
        · rw [List.filterMap_cons_none (by rw [if_pos h, if_neg h3]), List.countP_cons, ih, hp e h]
          simp
      · rw [List.filterMap_cons_some (by rw [if_neg h]), List.countP_cons, List.countP_cons, ih]
  · exact refreshed
  · exact refreshed

/-- An ALERT made leaves the DECLINEs and the general positions as they are (R138, R139, R154). -/
theorem makeAlert_declines (cancelled : Bool) (status : Nat) (s : State) :
    (∀ n, (makeAlert cancelled status s).radio.hasDecline n = s.radio.hasDecline n) ∧
    (makeAlert cancelled status s).radio.generalCount = s.radio.generalCount := by
  refine ⟨fun n => ?_, makeAlert_countP _ _ _ _ fun e he => by rw [he]; rfl⟩
  rw [Radio.hasDecline, Radio.hasDecline, Bool.eq_iff_iff, List.any_eq_true, List.any_eq_true, ← List.countP_pos_iff, ← List.countP_pos_iff,
    makeAlert_countP]
  intro e he
  unfold Entry.kind contentKind at he
  cases hc : e.content <;> simp_all

end Sys2Proof.Machine
end

