-- ==== Sys2Proof/Laws/Requests.lean ====
section
/-! SUPPORT. What a command of a port and a received frame come to, once it is known that they are taken (R145, R166, R167, R178). -/

namespace Sys2Proof.Machine

open Sys2Proof

/-- A part that is supplied runs the operation, with the update of the check value (R178). -/
theorem whenUp_up {f : State → State} {s : State} (h : s.power = .up) : whenUp f s = .next (sealDomain (f s)) := by simp [whenUp, h]

/-- A part without supply leaves the operation undone (R178; log 5). -/
theorem whenUp_down {f : State → State} {s : State} (h : s.power = .down) : whenUp f s = .next s := by simp [whenUp, h]

/-- A request that can be taken is taken by its owner, whose reply is then held (R167). -/
theorem request_taken {p : Port} {c : Instr} {owner : State → Reply} {s : State} (h : canTake p c s = true) :
    request p c owner s = holdReply p (commandCode c) (owner (arrived p c s)) := by simp [request, h]

/-- A request that cannot be taken has its frame's own effects and no others (R166). -/
theorem request_dropped {p : Port} {c : Instr} {owner : State → Reply} {s : State} (h : canTake p c s = false) :
    request p c owner s = frameReceived p s := by simp [request, h]

/-- A command that is taken answers with its owner's result, data and state. -/
theorem exec_of_takes {p : Port} {c : Instr} {owner : State → Reply} {s u : State} (h : Takes p c s) (hu : u = arrived p c s)
    (he : exec c s = whenUp (request p c owner) s) :
    exec c s = .next (replied p c (owner u).2.1 (owner u).2.2 (owner u).1) := by
  rw [he, whenUp_up h.1, request_taken h.2, hu]
  rfl

/-- A frame that is delivered, its fields taken, does what its owner makes of it (R145). -/
theorem receive_of_delivered {c : Instr} {s : State} {taken : Bool} {f : State → State} (h : Delivered c s) (ht : taken = true) :
    whenUp (receive c taken f) s = .next (sealDomain (f s)) := by
  rw [whenUp_up h.1]
  unfold receive
  rw [h.2, ht]
  rfl

/-- A frame whose fields are not taken changes nothing (R145). -/
theorem receive_of_not_taken {c : Instr} {s : State} {taken : Bool} {f : State → State} (h : Delivered c s) (ht : taken = false) :
    whenUp (receive c taken f) s = .next (sealDomain s) := by
  rw [whenUp_up h.1]
  unfold receive
  rw [ht, Bool.and_false]
  rfl

end Sys2Proof.Machine
end

