-- ==== Sys2Proof/Laws/Sequence.lean ====
section
/-! SUPPORT. The sequence of an uplink entry (R156): the search for it finds the first free one. -/

namespace Sys2Proof.Machine

open Sys2Proof

/-- The search, from the j-th value on with all before it held, finds the first free one if it has steps enough for a free one. -/
theorem freeSeq_from (queue : List Entry) (m : Nat) : ∀ fuel j,
    (∀ i < j, ∃ x ∈ queue, x.seq = some ((m + i) % 16)) →
    (∃ i, j ≤ i ∧ i < j + fuel ∧ ∀ x ∈ queue, x.seq ≠ some ((m + i) % 16)) →
    ∃ k, k < j + fuel ∧ freeSeq queue fuel ((m + j) % 16) = (m + k) % 16 ∧ (∀ x ∈ queue, x.seq ≠ some ((m + k) % 16)) ∧
      ∀ i < k, ∃ x ∈ queue, x.seq = some ((m + i) % 16) := by
  intro fuel
  induction fuel with
  | zero =>
    rintro j _ ⟨i, h1, h2, _⟩
    omega
  | succ f ih =>
    intro j h ⟨i, h1, h2, h3⟩
    unfold freeSeq
    by_cases ha : queue.any (fun e => decide (e.seq = some ((m + j) % 16))) = true
    · have hj : ∃ x ∈ queue, x.seq = some ((m + j) % 16) := by simpa using ha
      have hn : ((m + j) % 16 + 1) % 16 = (m + (j + 1)) % 16 := by omega
      rw [if_pos ha, hn]
      obtain ⟨k, hk, hfound⟩ := ih (j + 1)
        (by
          intro i hi
          rcases Nat.lt_succ_iff_lt_or_eq.1 hi with hlt | rfl
          · exact h i hlt
          · exact hj)
        ⟨i, by
          rcases Nat.lt_or_eq_of_le h1 with hlt | rfl
          · exact hlt
          · obtain ⟨x, hx, he⟩ := hj
            exact absurd he (h3 x hx), by omega, h3⟩
      exact ⟨k, by omega, hfound⟩
    · rw [if_neg ha]
      exact ⟨j, by omega, rfl, by simpa using ha, h⟩

/-- Fewer than 16 entries leave one of the 16 values free. -/
theorem free_of_sixteen (queue : List Entry) (m : Nat) (hl : queue.length < 16) :
    ∃ i, i < 16 ∧ ∀ x ∈ queue, x.seq ≠ some ((m + i) % 16) := by
  by_contra hc
  push Not at hc
  have hsub : (List.range 16).map (fun i => some ((m + i) % 16)) ⊆ queue.map Entry.seq := by
    intro x hx
    obtain ⟨i, hi, rfl⟩ := List.mem_map.1 hx
    obtain ⟨e, he, h⟩ := hc i (List.mem_range.1 hi)
    exact List.mem_map.2 ⟨e, he, h⟩
  have hn : ((List.range 16).map (fun i => some ((m + i) % 16))).Nodup := by
    refine List.Nodup.map_on ?_ List.nodup_range
    intro a ha b hb h
    rw [List.mem_range] at ha hb
    injection h with h
    omega
  have := (hn.subperm hsub).length_le
  rw [List.length_map, List.length_map, List.length_range] at this
  omega

/-- The sequence that an entry without one takes: the first free value from m on, modulo 16 (R156). -/
theorem freeSeq_first (queue : List Entry) (m : Nat) (hl : queue.length < 16) (hm : m < 16) :
    ∃ k, k < 16 ∧ freeSeq queue 16 m = (m + k) % 16 ∧ (∀ x ∈ queue, x.seq ≠ some ((m + k) % 16)) ∧
      ∀ i < k, ∃ x ∈ queue, x.seq = some ((m + i) % 16) := by
  obtain ⟨i, hi, h⟩ := free_of_sixteen queue m hl
  have h0 : (m + 0) % 16 = m := by omega
  obtain ⟨k, hk, hs, hfree⟩ := freeSeq_from queue m 16 0 (by simp) ⟨i, by omega, by omega, h⟩
  rw [h0] at hs
  exact ⟨k, by omega, hs, hfree⟩

end Sys2Proof.Machine
end

