-- ==== Sys2Proof/Laws/Supply.lean ====
section
/-! SUPPORT. What the steps of a warm start (R20 to R22, R31, R49, R179) do, each in one equation. -/

namespace Sys2Proof.Machine

open Sys2Proof

/-- A fault entry and its notice (R180). -/
theorem placeFault_eq (k : FaultKind) (a : Bool) (s : State) : placeFault k a s = { s with
    faults := logFault true k s.tariff.clock a s.faults, meter := { s.meter with notices := s.meter.notices ||| 0x20 } } := by
  simp only [placeFault, logFault, Config.faultMax, PortState.place, noticeFault, if_true]
  split <;> try rfl

/-- The check of the active image (R31). -/
theorem checkActive_eq (s : State) : checkActive s = { s with
    tariff := { s.tariff with active := s.tariff.active.filter (fun i => decide (imageCheck i.image = i.check)) }
    faults := logFault (s.tariff.active.any (fun i => decide (imageCheck i.image ≠ i.check))) .tariffCheckFailed s.tariff.clock s.trip.isSome
      s.faults
    meter := { s.meter with
      notices := s.meter.notices ||| (if s.tariff.active.any (fun i => decide (imageCheck i.image ≠ i.check)) then 0x20 else 0) } } := by
  unfold checkActive
  cases h : s.tariff.active with
  | none =>
    simp [logFault]
    rw [← h]
  | some i =>
    by_cases hi : imageCheck i.image = i.check
    · have hf : (some i).filter (fun i => decide (imageCheck i.image = i.check)) = some i := by simp [Option.filter, hi]
      rw [hf]
      simp [logFault, imagePasses, hi]
      rw [← h]
    · simp only [imagePasses, hi, decide_false, Bool.false_eq_true, if_false, placeFault_eq]
      simp [tripActive, Option.filter, hi]

/-- The check of the pending image (R31). -/
theorem checkPending_eq (s : State) : checkPending s = { s with
    tariff := { s.tariff with pending := s.tariff.pending.filter (fun i => decide (imageCheck i.image = i.check)) }
    faults := logFault (s.tariff.pending.any (fun i => decide (imageCheck i.image ≠ i.check))) .tariffCheckFailed s.tariff.clock s.trip.isSome
      s.faults
    meter := { s.meter with
      notices := s.meter.notices ||| (if s.tariff.pending.any (fun i => decide (imageCheck i.image ≠ i.check)) then 0x20 else 0) } } := by
  unfold checkPending
  cases h : s.tariff.pending with
  | none =>
    simp [logFault]
    rw [← h]
  | some i =>
    by_cases hi : imageCheck i.image = i.check
    · have hf : (some i).filter (fun i => decide (imageCheck i.image = i.check)) = some i := by simp [Option.filter, hi]
      rw [hf]
      simp [logFault, imagePasses, hi]
      rw [← h]
    · simp only [imagePasses, hi, decide_false, Bool.false_eq_true, if_false, placeFault_eq]
      simp [tripActive, Option.filter, hi]

/-- What becomes of the trip found (R20, R21, R22, R49). -/
theorem continueTrip_eq (s : State) : continueTrip s = { s with
    trip := match s.trip with
      | none => none
      | some t => match t.phase with
        | .running => some { t with interruptions := min (t.interruptions + 1) 15 }
        | .stopped _ _ => some (if s.tariff.active.isSome then t else { t with phase := .stopped t.fare 0 })
    totals := if tripRunning s then { s.totals with interruptions := min (s.totals.interruptions + 1) 999999999 } else s.totals
    evalDue := if tripRunning s then (if s.tariff.active.isSome then some (s.now + 1000) else none) else s.evalDue
    faults := logFault (tripRunning s) .powerInterrupted s.tariff.clock true s.faults
    meter := { s.meter with notices := s.meter.notices ||| (if tripRunning s then 0x20 else 0) ||| (if tripRunning s then 0x10 else 0) } } := by
  unfold continueTrip tripRunning tripCode
  cases h : s.trip with
  | none =>
    simp [logFault]
    rw [← h]
  | some t =>
    cases hp : t.phase with
    | running =>
      simp only [hp, resumeRunning, placeFault_eq]
      simp [noticeMeter, PortState.place, satAdd, Config.countMax]
    | stopped a b =>
      simp only [hp, keepStopped]
      split
      · simp [logFault]
        rw [← h]
      · simp [logFault]

end Sys2Proof.Machine
end

