-- ==== Sys2Proof/Laws/Tariff.lean ====
section
/-! SUPPORT. The laid-out form of a tariff image (11.4) is read back as it was written. -/

namespace Sys2Proof.Machine

open Sys2Proof

/-- One byte carries a number below 256. -/
theorem bytesNat_natBytes_one (v : Nat) (h : v < 256) : bytesNat (natBytes 1 v) = v := by
  simp [bytesNat, natBytes]; omega

/-- Two bytes carry a number below 65,536. -/
theorem bytesNat_natBytes_two (v : Nat) (h : v < 65536) : bytesNat (natBytes 2 v) = v := by
  simp [bytesNat, natBytes]; omega

/-- Three bytes carry a number below 16,777,216. -/
theorem bytesNat_natBytes_three (v : Nat) (h : v < 16777216) : bytesNat (natBytes 3 v) = v := by
  simp [bytesNat, natBytes]; omega

/-- A band in range is read back from its 15 bytes (11.4). -/
theorem decodeBand_bandBytes (b : Band) (h : b.inRange = true) : decodeBand (bandBytes b) = some b := by
  rcases b with ⟨f0, d0, a, ds, ts, m, fm⟩
  have hh := h
  simp only [Band.inRange, within, Bool.and_eq_true, decide_eq_true_eq] at hh
  obtain ⟨⟨⟨⟨⟨h1, h2⟩, h3⟩, h4⟩, h5⟩, h6⟩ := hh
  have e1 := bytesNat_natBytes_three f0 (by omega); have e2 := bytesNat_natBytes_two d0 (by omega); have e3 := bytesNat_natBytes_two a (by omega); have e4 := bytesNat_natBytes_two ds (by omega)
  have e5 := bytesNat_natBytes_two ts (by omega); have e6 := bytesNat_natBytes_three fm (by omega)
  simp only [natBytes] at e1 e2 e3 e4 e5 e6
  have em : modeOf (BitVec.ofNat 8 (stepModeCode m / 256 ^ 0)).toNat = some m := by cases m <;> rfl
  simp only [bandBytes, natBytes, List.cons_append, List.nil_append, decodeBand]
  rw [em]
  simp only [e1, e2, e3, e4, e5, e6, h, if_true]

/-- A band takes 15 bytes (11.4). -/
theorem bandBytes_length (b : Band) : (bandBytes b).length = 15 := by simp [bandBytes, natBytes]

/-- A schedule in range is read back from its bytes (11.4). -/
theorem decodeSchedule_scheduleBytes (es : List ScheduleEntry) (h : es.all ScheduleEntry.inRange = true) : decodeSchedule (es.flatMap scheduleBytes) = some es := by
  induction es with
  | nil => rfl
  | cons e es ih =>
    simp only [List.all_cons, Bool.and_eq_true] at h
    rcases e with ⟨d, st, b⟩
    have hh := h.1
    simp only [ScheduleEntry.inRange, within, Bool.and_eq_true, decide_eq_true_eq] at hh
    have e1 := bytesNat_natBytes_two st (by omega); have e2 := bytesNat_natBytes_one b (by omega)
    simp only [natBytes] at e1 
    simp only [List.flatMap_cons, scheduleBytes, natBytes, List.cons_append, List.nil_append, decodeSchedule, e1, ih h.2]
    have hb : (BitVec.ofNat 8 (b / 256 ^ 0)).toNat = b := by simp; omega
    have hd : BitVec.setWidth 7 (BitVec.ofNat 8 (d.toNat / 256 ^ 0)) = d := by
      apply BitVec.eq_of_toNat_eq
      have := d.isLt
      simp only [BitVec.toNat_setWidth, BitVec.toNat_ofNat]
      omega
    have h7 : (BitVec.ofNat 8 (d.toNat / 256 ^ 0)).getLsbD 7 = false := by
      have := d.isLt
      rw [BitVec.getLsbD, BitVec.toNat_ofNat]
      exact Nat.testBit_lt_two_pow (by omega)
    rw [hb, hd, h7]
    simp [h.1]

/-- Extras in range are read back from their bytes (11.4). -/
theorem decodeExtras_extraBytes (es : List Extra) (h : es.all Extra.inRange = true) : decodeExtras (es.flatMap extraBytes) = some es := by
  induction es with
  | nil => rfl
  | cons e es ih =>
    simp only [List.all_cons, Bool.and_eq_true] at h
    rcases e with ⟨a, c⟩
    have hh := h.1
    simp only [Extra.inRange, within, Bool.and_eq_true, decide_eq_true_eq] at hh
    have e1 := bytesNat_natBytes_three a (by omega)
    simp only [natBytes] at e1 
    simp only [List.flatMap_cons, extraBytes, natBytes, List.cons_append, List.nil_append, decodeExtras, e1, ih h.2]
    have hb : (BitVec.ofNat 8 (c / 256 ^ 0)).toNat = c := by simp; omega
    rw [hb]
    simp [h.1]

/-- Part 0 is stored whole (R27). -/
theorem loadTariffPart_part0 (v b1 b2) (hv : v < 65536) (h1 : b1.inRange = true) (h2 : b2.inRange = true) :
   loadTariffPart 0 ((part0Bytes v b1 b2).drop 1) = fun s : State => done .ok { s with tariff := { s.tariff with staged := { s.tariff.staged with part0 := some (v, b1, b2) } } } := by
  funext s
  have l1 := bandBytes_length b1; have l2 := bandBytes_length b2
  have e : (part0Bytes v b1 b2).drop 1 = natBytes 2 v ++ (bandBytes b1 ++ bandBytes b2) := by simp [part0Bytes, natBytes]
  rw [e]
  have hl : (natBytes 2 v).length = 2 := rfl
  have hlen : tariffContentLength 0 (natBytes 2 v ++ (bandBytes b1 ++ bandBytes b2)) = true := by simp [tariffContentLength, l1, l2, hl]
  unfold loadTariffPart
  rw [if_pos hlen]
  have d1 : (natBytes 2 v ++ (bandBytes b1 ++ bandBytes b2)).drop 2 = bandBytes b1 ++ bandBytes b2 := by rfl
  have d2 : (natBytes 2 v ++ (bandBytes b1 ++ bandBytes b2)).drop 17 = bandBytes b2 := by
    have : (17 : Nat) = 2 + 15 := rfl
    rw [this, ← List.drop_drop, d1, List.drop_append_of_le_length (by omega), List.drop_of_length_le (by omega)]; rfl
  have d3 : (bandBytes b1 ++ bandBytes b2).take 15 = bandBytes b1 := by rw [List.take_append_of_le_length (by omega), List.take_of_length_le (by omega)]
  simp only [stagePart, d1, d2, d3, decodeBand_bandBytes _ h1, decodeBand_bandBytes _ h2]
  have : bytesNat ((natBytes 2 v ++ (bandBytes b1 ++ bandBytes b2)).take 2) = v := bytesNat_natBytes_two v hv
  rw [this]

/-- Part 1 is stored whole (R27). -/
theorem loadTariffPart_part1 (b1 b2) (h1 : b1.inRange = true) (h2 : b2.inRange = true) :
   loadTariffPart 1 ((part1Bytes b1 b2).drop 1) = fun s : State => done .ok { s with tariff := { s.tariff with staged := { s.tariff.staged with part1 := some (b1, b2) } } } := by
  funext s
  have l1 := bandBytes_length b1; have l2 := bandBytes_length b2
  have e : (part1Bytes b1 b2).drop 1 = (bandBytes b1 ++ bandBytes b2) := by simp [part1Bytes, natBytes]
  rw [e]
  have hlen : tariffContentLength 1 ((bandBytes b1 ++ bandBytes b2)) = true := by simp [tariffContentLength, l1, l2]
  unfold loadTariffPart
  rw [if_pos hlen]
  have d2 : ((bandBytes b1 ++ bandBytes b2)).drop 15 = bandBytes b2 := by
    rw [List.drop_append_of_le_length (by omega), List.drop_of_length_le (by omega)]; rfl
  have d3 : (bandBytes b1 ++ bandBytes b2).take 15 = bandBytes b1 := by rw [List.take_append_of_le_length (by omega), List.take_of_length_le (by omega)]
  simp only [stagePart, d2, d3, decodeBand_bandBytes _ h1, decodeBand_bandBytes _ h2]

/-- A schedule entry takes 4 bytes (11.4). -/
theorem scheduleBytes_length (es : List ScheduleEntry) : (es.flatMap scheduleBytes).length = 4 * es.length := by
  induction es with
  | nil => rfl
  | cons e es ih => simp only [List.flatMap_cons, List.length_append, ih, List.length_cons]; have : (scheduleBytes e).length = 4 := rfl; omega

/-- An extra takes 4 bytes (11.4). -/
theorem extraBytes_length (es : List Extra) : (es.flatMap extraBytes).length = 4 * es.length := by
  induction es with
  | nil => rfl
  | cons e es ih => simp only [List.flatMap_cons, List.length_append, ih, List.length_cons]; have : (extraBytes e).length = 4 := rfl; omega

/-- Part 2 is stored whole (R27). -/
theorem loadTariffPart_part2 (es) (h : es.all ScheduleEntry.inRange = true) (h8 : es.length ≤ 8) :
   loadTariffPart 2 ((part2Bytes es).drop 1) = fun s : State => done .ok { s with tariff := { s.tariff with staged := { s.tariff.staged with part2 := some es } } } := by
  funext s
  have e : (part2Bytes es).drop 1 = BitVec.ofNat 8 es.length :: es.flatMap scheduleBytes := by simp [part2Bytes, natBytes]
  have hn : (BitVec.ofNat 8 es.length).toNat = es.length := by simp; omega
  rw [e]
  unfold loadTariffPart
  rw [if_pos (by simp only [tariffContentLength, hn, scheduleBytes_length]; simp)]
  simp only [stagePart, hn, h8, if_true, decodeSchedule_scheduleBytes es h, Option.map_some]

/-- Part 3 is stored whole (R27). -/
theorem loadTariffPart_part3 (es) (h : es.all Extra.inRange = true) (h8 : es.length ≤ 8) :
   loadTariffPart 3 ((part3Bytes es).drop 1) = fun s : State => done .ok { s with tariff := { s.tariff with staged := { s.tariff.staged with part3 := some es } } } := by
  funext s
  have e : (part3Bytes es).drop 1 = BitVec.ofNat 8 es.length :: es.flatMap extraBytes := by simp [part3Bytes, natBytes]
  have hn : (BitVec.ofNat 8 es.length).toNat = es.length := by simp; omega
  rw [e]
  unfold loadTariffPart
  rw [if_pos (by simp only [tariffContentLength, hn, extraBytes_length]; simp)]
  simp only [stagePart, hn, h8, if_true, decodeExtras_extraBytes es h, Option.map_some]

end Sys2Proof.Machine
end

