-- ==== Sys2Proof/Laws/Time.lean ====
section
/-! SUPPORT. When the part's own events fall due: what stands in each of the lists that an idle step looks through (log 2). -/

namespace Sys2Proof.Machine

open Sys2Proof

/-- A timer has fallen due. -/
theorem dueNow_iff (s : State) (d : Option Nat) : dueNow s d = true ↔ ∃ due, d = some due ∧ due ≤ s.now := by
  cases d <;> simp [dueNow]

/-- The beacon timer has expired in a mark, or in a space (R135). -/
theorem beaconDue_iff (mark : Bool) (s : State) (now : Nat) :
    (∃ due, (beaconDue mark s).map BeaconCycle.due = some due ∧ due ≤ now) ↔
      s.alarm.record.state ≠ .normal ∧ (∃ n, s.alarm.record.position = some (n, if mark then .mark else .space)) ∧
      ∃ c, s.alarm.cycle = some c ∧ c.due ≤ now := by
  unfold beaconDue inEmergency inMark
  rcases s.alarm.record.position with _ | ⟨n, _ | _⟩ <;> cases mark <;> by_cases h : s.alarm.record.state = .normal <;>
    cases s.alarm.cycle <;> simp [h]

/-- The end of a transmission that has fallen due (R160, R163). -/
theorem mem_dueTransmission (c : Instr) (s : State) : c ∈ dueTransmission s ↔
    (c = .transmissionEnd ∧ ∃ t, s.radio.tx = some t ∧ t.kind ≠ .blind ∧ t.ends ≤ s.now) ∨
    (c = .blindTransmissionEnd ∧ ∃ t, s.radio.tx = some t ∧ t.kind = .blind ∧ t.ends ≤ s.now) := by
  unfold dueTransmission
  rcases s.radio.tx with _ | t
  · simp
  · by_cases h1 : t.ends ≤ s.now <;> by_cases h2 : t.kind = .blind <;> simp [h1, h2]

/-- The offer timers that have expired (R96, R102). -/
theorem mem_dueOffers (c : Instr) (s : State) : c ∈ dueOffers s ↔ ∃ o ∈ s.offers.entries,
    (c = .deadlineExpiry o.number ∧ ∃ due, o.deadlineDue = some due ∧ due ≤ s.now) ∨
    (c = .awardTimerExpiry o.number ∧ ∃ due, o.awardDue = some due ∧ due ≤ s.now) := by
  unfold dueOffers Offer.deadlineDue Offer.awardDue
  rw [List.mem_filterMap]
  refine exists_congr fun o => and_congr Iff.rfl ?_
  cases o.state <;> simp [eq_comm, and_comm]

/-- The slots that start now (R157, R158). -/
theorem mem_dueSlots (c : Instr) (s : State) : c ∈ dueSlots s ↔ s.radio.tx = none ∧ ∃ p, s.radio.plan = some p ∧
    ((c = .contentionSlot ∧ p.contentionDone = false ∧ p.headEnd + p.drawn * p.ts = s.now) ∨
      ∃ j, c = .reservedSlot j ∧ p.nextReserved ≤ j ∧ p.grants[j]? = some s.settings.cab ∧ p.headEnd + p.slots * p.ts + j * p.tl = s.now) := by
  unfold dueSlots
  rcases s.radio.plan with _ | p
  · simp
  · rcases s.radio.tx with _ | t
    · simp only [Option.isSome_none, Bool.false_eq_true, if_false, List.mem_append, List.mem_map, List.mem_filter, List.mem_range,
        reservedGranted, Bool.and_eq_true, decide_eq_true_eq, Plan.reservedStart, Plan.contentionStart, true_and, Option.some.injEq,
        exists_eq_left']
      apply or_congr
      · by_cases h : p.contentionDone = false ∧ p.headEnd + p.drawn * p.ts = s.now <;> simp [h]
      · refine exists_congr fun j => ?_
        constructor
        · rintro ⟨⟨-, ⟨h2, h3⟩, h4⟩, h5⟩
          exact ⟨h5.symm, h2, h3, of_decide_eq_true h4⟩
        · rintro ⟨h5, h2, h3, h4⟩
          exact ⟨⟨(List.getElem?_eq_some_iff.1 h3).1, ⟨h2, h3⟩, decide_eq_true h4⟩, h5.symm⟩
    · simp

end Sys2Proof.Machine
end

