-- ==== Sys2Proof/Tests/Slice0.lean ====
section
/-! SUPPORT. Tests: what WellFormed refuses, the spec's worked values, one step of the plainest commands, and for every statement with hypotheses a
concrete state and operands that meet them. -/

namespace Sys2Proof.Tests

open Sys2Proof Sys2Proof.Machine

/-! ## Small states -/

/-- Band 1 of the worked example of section 1.7. -/
def band1 : Band := ⟨350, 1000, 20, 200, 360, .single, 400⟩

/-- Band 2 of the worked example of section 1.7. -/
def band2 : Band := ⟨450, 800, 25, 160, 300, .single, 500⟩

/-- A tariff image with both bands, one schedule entry (Friday from 22:00, band 2) and one extra. -/
def image : Image := ⟨1, band1, band2, band1, band2, [⟨0x10, 1320, 2⟩], [⟨100, 4⟩]⟩

/-- A part with identity, K, an active image and a set clock; nobody is signed on. -/
def idle : State :=
  { State.reset with
    settings := { Settings.cold with cab := 87, fleet := 12, k := 4000 }
    tariff := { TariffStore.cold with active := some ⟨image, 0⟩, clock := ⟨true, 5, 21, 57, 50⟩ } }

/-- The part on duty and VACANT. -/
def vacant : State :=
  { idle with duty := { DutyUnit.reset with
    state := .vacant, signedOn := true, presence := .present, presenceDue := some 30000, statusDue := some 120000 } }

/-- A trip right after its FLAG DOWN. -/
def trip : Trip :=
  { phase := .running, mode := .auto, flagDownBand := 1, band := 1, pendingBand := none, progress := 0, remaining := 360000
    flagDownTime := ⟨true, 5, 21, 57, 50⟩, f0 := 350, fare := 350, steps := 0, distance := 0, waiting := 0, extras := []
    job := none, interruptions := 0, saturated := false, speedFault := false, emergency := false }

/-- The part with a trip RUNNING. -/
def running : State :=
  { vacant with trip := some trip, evalDue := some 1000, duty := { vacant.duty with state := .hired } }

/-- The part with the trip STOPPED and its resume window open. -/
def stopped : State :=
  { running with trip := some { trip with phase := .stopped 400 50 }, evalDue := none, resumeDue := some 60000 }

/-- The part CLEARING with five minutes announced. -/
def clearing : State := { running with duty := { running.duty with state := .clearing, soonClear := some 5 } }

/-- A job record without text. -/
def job : Job := ⟨77, 5, false, none, ⟨[], 0⟩, false⟩

/-- The part ASSIGNED with its current job. -/
def assigned : State := { vacant with duty := { vacant.duty with state := .assigned, current := some job } }

/-- The part HIRED with a next job. -/
def stacked : State := { running with duty := { running.duty with next := some job } }

/-- An offer entry of a number in a state. -/
def entryOf (n arrival : Nat) (st : OfferState) : Offer := ⟨n, .directed, 5, true, false, none, ⟨[], 0⟩, false, 20, arrival, st⟩

/-- The part VACANT with the offers given. -/
def offering (entries : List Offer) : State := { vacant with offers := { OfferTable.reset with entries := entries, nextArrival := 9, zones := [5] } }

/-- An OFFER frame's fields. -/
def fields (n : Nat) (dest : DestKind) : OfferFields := ⟨n, dest, true, false, 5, 900, 20, [0x41]⟩

/-- An inbound entry of a number. -/
def inboundOf (n : Nat) (c : MessageClass) (read replied : Bool) : Inbound := ⟨n, c, ClockReading.unset, ⟨[], 0⟩, read, replied⟩

/-- The part with the inbound entries given. -/
def reading (entries : List Inbound) : State := { vacant with messages := { MessageStore.reset with inbound := entries } }

/-- An outbound entry of a local number. -/
def outboundOf (n : Nat) (st : OutboundState) : Outbound := ⟨n, none, .canned 3, st⟩

/-- The part with the outbound entries given. -/
def writing (entries : List Outbound) : State := { vacant with messages := { MessageStore.reset with outbound := entries, nextLocal := 255 } }

/-- The part with line ALM0 armed at its inactive level and the link UP. -/
def armed : State :=
  { running with
    alarm := { running.alarm with line0 := ⟨some .high, true, false⟩ }
    radio := { Radio.reset with link := .up, linkDue := some 10000, plan := some ⟨0, 4, 80, 200, [87, 305, 87], 2, false, 0⟩, lastCycle := some 40 } }

/-- The part in ALERTING, in the mark of its first cycle. -/
def alerting : State :=
  { armed with
    alarm := { armed.alarm with
      record := ⟨.alerting, 1, some ClockReading.unset, true, .urgent, some (1, .mark), 0, true⟩
      cancelDue := some 20000, cycle := some ⟨3, 4, 20, false, 2, 4000⟩, saved := some Levels.default }
    radio := { armed.radio with levels := Levels.zero } }

/-- The part in ALERTING, in the space of a cycle, with a hold. -/
def spacing : State :=
  { alerting with alarm := { alerting.alarm with record := { alerting.alarm.record with position := some (3, .space), hold := 2 } } }

/-- The part in SEEN. -/
def seen : State :=
  { alerting with alarm := { alerting.alarm with
    cancelDue := none, record := { alerting.alarm.record with state := .seen, cancelOpen := false, beaconSet := .sustained } } }

/-- An Uplink Queue entry. -/
def queued (c : Content) (st : EntryState) (seq : Option Nat) (retry backoff arrival : Nat) : Entry :=
  { newEntry c arrival with state := st, seq := seq, retry := retry, backoff := backoff }

/-- The part with a link that is UP and the queue given. -/
def linked (queue : List Entry) : State := { armed with radio := { armed.radio with queue := queue, nextArrival := 20, nextSeq := 8 } }

/-- The part transmitting in a slot. -/
def sending : State :=
  { linked [queued (.decline 6 .driver) .sending (some 3) 0 0 1] with
    radio := { (linked [queued (.decline 6 .driver) .sending (some 3) 0 0 1]).radio with tx := some ⟨.entry 1, [0x9C], 0, 60⟩ } }

/-- The part with a request of its Terminal Port handed on. -/
def handedOn : State := { vacant with handed := [(.terminal, .command .signOff)], terminal := { vacant.terminal with buffer := .pending 0x41 } }

/-- The part without VMAIN. -/
def down : State := { idle with power := .down }

/-! ## What WellFormed refuses -/

theorem test_wellFormed_refuses_long_numbers :
    [Instr.flagDown 256 0, .flagDown 0 256, .addExtra 256, .readClosed 256, .commitTariff 65536, .setClock 256 0 0 0, .setClock 1 256 0 0,
     .setClock 1 0 256 0, .setClock 1 0 0 256, .calibrate 65536, .setIdentity 65536 1, .setIdentity 1 256, .setAirRate 65536, .setKeyLead 256,
     .setStatusInterval 65536, .setAlarmVisible 256, .setUrgentSet 256 4 20, .setUrgentSet 3 256 20, .setUrgentSet 3 4 65536,
     .setSustainedSet 256 4 60, .setSustainedSet 1 256 60, .setSustainedSet 1 4 65536, .setSensitivity .alm0 256, .setNotices .meter 256,
     .soonClear 256, .readJob 256, .setOfferMode 256, .readOffer 256, .accept 65536, .decline 65536, .dismiss 65536, .readMessage 256,
     .markRead 65536, .delete 65536, .readOutbound 256, .dismissOutbound 256, .setPriority 256 0, .setPriority 2 256, .deadlineExpiry 65536,
     .awardTimerExpiry 65536].all (fun i => !i.wellFormed) = true := by decide

theorem test_wellFormed_refuses_bad_lists :
    [Instr.loadTariffPart 256 [], .loadTariffPart 0 (List.replicate 31 0), .loadTariffPart 1 (List.replicate 31 0), .loadTariffPart 2 [],
     .loadTariffPart 2 [1, 0], .loadTariffPart 3 [], .loadTariffPart 3 [1, 0], .loadTariffPart 4 (List.replicate 255 0), .setZones [65536],
     .setZones (List.replicate 128 1), .reply 65536 0 [], .reply 1 256 [], .reply 1 0 (List.replicate 252 0), .sendMessage 256 [],
     .sendMessage 0 (List.replicate 254 0), .setPosition 2147483648 0, .setPosition (-2147483649) 0, .setPosition 0 2147483648,
     .setPosition 0 (-2147483649), .alarmLineLevel none none].all (fun i => !i.wellFormed) = true := by decide +kernel

theorem test_wellFormed_refuses_bad_frames :
    [Instr.poll (.cab 0), .poll (.cab 4096), .poll (.zone 0), .poll (.zone 1000), .alertSeen (.cab 0), .standDown (.zone 0),
     .cycleHead (.cab 0) ⟨0, 1, 40, 60, [], []⟩, .cycleHead .all ⟨256, 1, 40, 60, [], []⟩, .cycleHead .all ⟨0, 256, 40, 60, [], []⟩,
     .cycleHead .all ⟨0, 1, 65536, 60, [], []⟩, .cycleHead .all ⟨0, 1, 40, 65536, [], []⟩, .cycleHead .all ⟨0, 1, 40, 60, [65536], []⟩,
     .cycleHead .all ⟨0, 1, 40, 60, [], [(4096, 0)]⟩, .cycleHead .all ⟨0, 1, 40, 60, [], [(1, 16)]⟩,
     .cycleHead .all ⟨0, 1, 40, 60, List.replicate 60 1, []⟩, .offer (.cab 0) (fields 1 .directed), .offer .all (fields 65536 .directed),
     .offer .all { fields 1 .zone with zone := 65536 }, .offer .all { fields 1 .zone with estimate := 16777216 },
     .offer .all { fields 1 .zone with deadline := 256 }, .offer .all { fields 1 .zone with text := List.replicate 65 0 },
     .award .all 65536, .award (.cab 0) 1, .lost .all 65536, .lost (.cab 0) 1, .withdraw .all 65536, .withdraw (.cab 0) 1, .jobCancel .all 65536,
     .jobCancel (.cab 0) 1, .message (.cab 0) 1 0 [], .message .all 65536 0 [], .message .all 1 256 [],
     .message .all 1 0 (List.replicate 124 0), .beaconHold (.cab 0) 1, .beaconHold .all 256].all (fun i => !i.wellFormed) = true := by decide

theorem test_wellFormed_accepts_bounds :
    [Instr.flagDown 255 255, .commitTariff 65535, .setZones [65535], .setPosition 2147483647 (-2147483648), .poll (.cab 4095), .poll (.zone 999),
     .cycleHead .all ⟨255, 255, 65535, 65535, [65535], [(4095, 15)]⟩, .offer .all (fields 65535 .zone), .alarmLineLevel (some .low) none,
     .loadTariffPart 2 [0], .loadTariffPart 9 [0, 0, 0]].all Instr.wellFormed = true := by decide

/-! ## Worked values of the spec -/

/-- The check string of section 11.1: the CRC of "123456789" is 0x29B1. -/
theorem test_crc_of_the_check_string : crc16 [0x31, 0x32, 0x33, 0x34, 0x35, 0x36, 0x37, 0x38, 0x39] = 0x29B1 := by decide +kernel

/-- The frame of the example of chapter 11: a RECEIPT with status STORED of cab 87, fleet 12, for message 910. -/
theorem test_receipt_frame :
    (uplinkFrame idle 5 5 2 (fillTo 9 (natBytes 2 910 ++ natBytes 1 0))).take 16 =
      [0x9C, 0x6B, 0x0C, 0xC1, 0x5D, 0x55, 0x09, 0x03, 0x8E, 0x00, 0, 0, 0, 0, 0, 0] := by decide

/-- Section 1.7: at 12 m in a second the distance units of band 1 exceed its time units, at 0 m the time units stand. -/
theorem test_units_of_a_second : secondUnits band1 12 = 4320 ∧ secondUnits band1 0 = 2000 ∧ band1.initialUnits = 360000 ∧ band1.units = 72000 := by
  decide

/-- R35: Friday 22:00 finds the entry, Friday 21:59 does not. -/
theorem test_lookup_at_the_start : bandLookup image ⟨true, 5, 22, 0, 0⟩ = 2 ∧ bandLookup image ⟨true, 5, 21, 59, 59⟩ = 1 := by decide

/-- R32: Sunday 23:59:59 is followed by Monday 00:00:00. -/
theorem test_clock_wraps_the_week : (ClockReading.mk true 7 23 59 59).tick = ⟨true, 1, 0, 0, 0⟩ := by decide

/-- A request frame: SET IDENTITY spelled by hand from the table of R177. -/
theorem test_request_bytes_of_set_identity : checkRequest .meter 0x1D [0x00, 0x57, 0x0C] = .take (.setIdentity 87 12) := by decide

/-- An AWARD of offer 4660 to cab 87 spelled by hand from R176 is delivered; one bit more in the CRC drops it. -/
theorem test_air_frame_of_an_award :
    airFramer 12 ([0x9C, 0x6B, 0x0C, 0x01, 0x5C, 0xC0, 0x02, 0x12, 0x34] ++ natBytes 2 (crc16 [0x0C, 0x01, 0x5C, 0xC0, 0x02, 0x12, 0x34]).toNat) =
      some (.award (.cab 87) 0x1234) ∧
    airFramer 12 ([0x9C, 0x6B, 0x0C, 0x01, 0x5C, 0xC0, 0x02, 0x12, 0x34] ++
      natBytes 2 ((crc16 [0x0C, 0x01, 0x5C, 0xC0, 0x02, 0x12, 0x34]).toNat ^^^ 1)) = none := by decide +kernel

/-- A command answers a next state in which a property holds. -/
def after (c : Instr) (s : State) (p : State → Bool) : Bool :=
  match exec c s with
  | .next t => p t
  | .fault _ => false
  | .refused _ => false

theorem test_pulses_under_4000 : after .distPulse { idle with dist := ⟨3000, 0⟩ } (fun t => decide (t.dist.remainder = 0 ∧ t.totals.distance = 1)) = true := by
  decide

theorem test_flag_down_charges_the_fall : after (.flagDown 1 2) idle (fun t => decide (t.trip.map Trip.fare = some 450 ∧ t.evalDue = some 1000)) = true := by
  decide

theorem test_stop_raises_to_the_minimum :
    after .stop running (fun t => decide (t.trip.map Trip.phase = some (.stopped 400 50))) = true := by decide

theorem test_clear_counts_the_trip : after .clear stopped (fun t => decide (t.trip = none ∧ t.totals.fare = 400 ∧ t.closed.length = 1)) = true := by
  decide

theorem test_press_begins_alerting :
    after (.alarmLineLevel (some .low) none) armed (fun t => decide (t.alarm.record.state = .alerting ∧ t.radio.levels = Levels.zero)) = true := by decide

theorem test_stuck_line_gives_no_press :
    after (.alarmLineLevel (some .low) none) { armed with alarm := { armed.alarm with line0 := ⟨some .high, false, true⟩ } }
      (fun t => decide (t.alarm.record.state = .normal)) = true := by decide

theorem test_award_fills_the_current_slot :
    after (.award (.cab 87) 3) (offering [entryOf 3 1 (.awaitingAward 30000)]) (fun t => decide (t.duty.current.map Job.number = some 3)) = true := by
  decide

theorem test_message_takes_the_lowest_blocks :
    after (.message (.cab 87) 9 0 (List.replicate 33 0x41)) vacant
      (fun t => decide (t.messages.inbound.map (fun m => m.text.blocks) = [[0, 1]])) = true := by decide

/-- R49, R179: a warm start that completes counts the interruption; the domain agrees because the part was sealed. -/
theorem test_warm_start_counts_an_interruption :
    after .start (sealDomain { running with power := .down, tariff := TariffStore.cold })
      (fun t => decide (t.trip.map Trip.interruptions = some 1 ∧ t.evalDue = none ∧ t.meter.notices = 0x30)) = true := by
  have h : ∀ s, exec .start (sealDomain s) = .next (sealDomain (warmStart (sealDomain s))) := by
    intro s; simp [exec, execStart, startAs]
  rw [after, h]
  decide +kernel

/-- R179: a start abandoned once the trip is continued leaves the part down with the interruption counted. -/
theorem test_abandoned_start_keeps_the_interruption :
    after (.vmainLossOrReset (.leftByStart .trip)) (goDown (sealDomain { running with tariff := TariffStore.cold }))
      (fun t => decide (t.trip.map Trip.interruptions = some 1 ∧ t.power = .down ∧ t.faults.length = 2)) = true := by
  have h : ∀ s, exec (.vmainLossOrReset (.leftByStart .trip)) (goDown (sealDomain s)) =
      .next (goDown (sealDomain (warmSteps .trip (goDown (goDown (sealDomain s)))))) := by
    intro s; simp [exec, execVmainLossOrReset, losePower, domainFate, startAs]
  rw [after, h]
  decide +kernel

/-- R165: a command request drives the idle byte, and READ REPLY the HELD reply. -/
theorem test_idle_byte_of_a_command_request :
    after (.requestFrameReceived .terminal [0x41, 0x00]) vacant
      (fun t => decide (t.terminal.answer = [0x00] ∧ t.handed = [(.terminal, .command .signOff)] ∧ t.terminal.buffer = .pending 0x41)) = true := by
  decide +kernel

/-- R166, R173: SET INSTALLATION of item 8, which is none, is PENDING first and BAD VALUE when its owner takes it. -/
theorem test_unknown_item_is_pending_then_bad_value :
    after (.requestFrameReceived .meter [0x1E, 0x01, 0x08]) idle
      (fun t => decide (t.meter.buffer = .pending 0x1E) && (match step t with
        | .next v => decide (v.meter.buffer = .held 0x1E .badValue [])
        | .fault _ => false
        | .refused _ => false)) = true := by decide +kernel

/-- R71: a job cancelled again changes no place and places no notice. -/
theorem test_repeated_cancel_places_no_notice :
    after (.jobCancel (.cab 87) 77) { running with trip := some { trip with job := some ⟨77, true⟩ } } (fun t => decide (t.terminal.notices = 0)) = true := by
  decide

/-- R144: a POLL to every cab has 9 bytes, so at 4,800 bit/s its first bit came 15 ms before its last. -/
theorem test_blanked_downlink_is_dropped :
    after (.poll .all) { vacant with now := 34, radio := { vacant.radio with blankedUntil := some 20 } } (fun t => decide (t.radio.queue = [])) = true ∧
    after (.poll .all) { vacant with now := 35, radio := { vacant.radio with blankedUntil := some 20 } } (fun t => decide (t.radio.queue ≠ [])) = true := by
  decide

/-- R152: the levels are read in the order of its table, so FARE TOTAL stands second. -/
theorem test_priorities_are_read_in_the_order_of_the_table :
    levelsData { Levels.default with fareTotal := 0, jobEvent := 3 } = [3, 0, 3, 2, 1, 1, 1] := by decide

/-! ## States and operands that meet the hypotheses of the statements -/

theorem witness_StepTakesTheFrontCommand :
    ({ idle with pending := [.clockTick, .stop] } : State).pending = .clockTick :: [.stop] ∧
    down.pending = [] ∧ down.power = .down ∧ running.pending = [] ∧ running.power = .up ∧ running.handed = [] ∧ dueEvents running = [] ∧
    dueEvents { running with now := 30000 } = [.evaluation, .presenceTimerExpiry] := by decide

theorem witness_CommandsChangeOnlyTheirFields :
    (∃ t, exec .clockTick idle = .next t) ∧ ∃ t, exec .distPulse idle = .next t ∧ t.power = .up ∧ Instr.distPulse ≠ .clockTick :=
  ⟨⟨_, rfl⟩, _, rfl, rfl, by decide⟩

theorem witness_TerminalAndAirCannotTouchTheFare :
    fromTerminalOrAir (.poll (.cab 87)) = true ∧ ∃ t, exec (.poll (.cab 87)) vacant = .next t := ⟨rfl, _, rfl⟩

theorem witness_RequestsAreDroppedOrAnswered :
    vacant.power = .up ∧ requestPort .signOff = some .terminal ∧ canTake .terminal .signOff vacant = true ∧ canTake .terminal .signOn handedOn = false ∧
    handedOn.power = .up := by decide

theorem witness_DutyLawIsKept :
    DutyLaw { clearing with pending := [.clockTick] } ∧ ∃ t, step { clearing with pending := [.clockTick] } = .next t := ⟨by decide, _, rfl⟩

theorem witness_OfferLawIsKept :
    OfferLaw (offering [entryOf 3 1 (.offered 20000), entryOf 4 2 (.accepting 30000)]) ∧
    ∃ t, step (offering [entryOf 3 1 (.offered 20000), entryOf 4 2 (.accepting 30000)]) = .next t := ⟨by decide, _, rfl⟩

theorem witness_MessageLawIsKept :
    MessageLaw (writing [outboundOf 255 .queued, outboundOf 1 .waiting]) ∧
    ∃ t, step (writing [outboundOf 255 .queued, outboundOf 1 .waiting]) = .next t := ⟨by decide, _, rfl⟩

/-- A part whose one message holds block 0 of the pool. -/
def holding : State :=
  { reading [⟨9, .info, ClockReading.unset, ⟨[0], 2⟩, false, false⟩] with pool := poolFree.set 0 ⟨some (.inbound 9), [0x41, 0x42]⟩ }

theorem witness_PoolLawIsKept : DutyLaw holding ∧ OfferLaw holding ∧ MessageLaw holding ∧ PoolLaw holding ∧ ∃ t, step holding = .next t :=
  ⟨by decide, by decide, by decide, by decide +kernel, _, rfl⟩

theorem witness_ClosedLawIsKept :
    ClosedLaw { alerting with closed := [⟨1, ClockReading.unset, ClockReading.unset, 400, 0, 900, none, false, false, true⟩] } ∧
    ∃ t, step alerting = .next t := ⟨by decide, _, rfl⟩

theorem witness_EmergencyLawIsKept :
    EmergencyLaw alerting ∧ (∃ t, step alerting = .next t) ∧ EmergencyLaw seen ∧ ∃ t, step seen = .next t :=
  ⟨by decide, ⟨_, rfl⟩, by decide, _, rfl⟩

theorem witness_QueueLawIsKept : QueueLaw sending ∧ ∃ t, step sending = .next t := ⟨by decide, _, rfl⟩

theorem witness_FareLawIsKept :
    FareLaw running ∧ (∃ t, step running = .next t) ∧ FareLaw stopped ∧ ∃ t, step stopped = .next t :=
  ⟨by decide, ⟨_, rfl⟩, by decide, _, rfl⟩

theorem witness_SettingsLawIsKept :
    SettingsLaw (sealDomain idle) ∧ DomainLaw (sealDomain idle) ∧ ∃ t, step (sealDomain idle) = .next t := ⟨by decide, fun _ => domainCheck_sealDomain idle, _, rfl⟩

theorem witness_PulseCountsMetres : State.reset.power = .up ∧ State.reset.settings.k = 0 ∧ idle.power = .up ∧ idle.settings.k ≠ 0 := by decide

theorem witness_PulsesCountByCalibration :
    State.reset.power = .up ∧ State.reset.settings.k = 0 ∧ idle.power = .up ∧ idle.settings.k ≠ 0 ∧ idle.dist.remainder = 0 ∧
    idle.dist.remainder < idle.settings.k ∧ idle.totals.distance ≤ 999999999 := by decide

theorem witness_StepLoopHasItsClosedForm :
    image.inRange = true ∧ 1 ≤ trip.remaining ∧ ({ trip with progress := 800000, pendingBand := some 2 } : Trip).progress ≤ 800000 := by decide

theorem witness_EvaluationChargesTheSecond :
    running.power = .up ∧ running.evalDue = some 1000 ∧ running.trip = some trip ∧ trip.phase = .running ∧
    running.tariff.active = some ⟨image, 0⟩ ∧ image.inRange = true ∧ 1 ≤ trip.remaining ∧ (image.band trip.band).mode = .single := by decide

theorem witness_LookupTakesTheLatestEntry :
    ClockReading.unset.isSet = false ∧ (∀ e ∈ image.schedule, e.qualifies 5 1319 = false) ∧
    (⟨0x10, 1320, 2⟩ : ScheduleEntry) ∈ image.schedule ∧ (⟨0x10, 1320, 2⟩ : ScheduleEntry).qualifies 5 1320 = true := by decide

theorem witness_TerminalFramesAreSignsOfTheTerminal :
    (.terminal, .command .signOff) ∈ handedOn.handed ∧ (.terminal, .command .signOff) ∉ idle.handed ∧ idle.duty.signedOn = false ∧
    (.terminal, .command .signOff) ∉ vacant.handed ∧ vacant.duty.signedOn = true ∧ vacant.duty.presence ≠ .absent ∧
    ({ vacant with duty := { vacant.duty with presence := .absent } } : State).duty.presence = .absent := by decide

theorem witness_RequestFramesAreCheckedAndHandedOn :
    vacant.power = .up ∧ ([] : List Byte).length < (2 : Byte).toNat ∧ (0 : Byte).toNat ≤ ([] : List Byte).length ∧
    (2 : Byte).toNat ≤ ([0, 7] : List Byte).length ∧ (0x48 : Byte) ≠ 0x01 ∧ (0x48 : Byte) ≠ 0x02 ∧ handedOn.pending = [] ∧
    handedOn.handed = (.terminal, .command .signOff) :: [] ∧
    ({ idle with handed := [(.meter, .unknownItem)] } : State).handed = (.meter, .unknownItem) :: [] ∧ idle.pending = [] := by decide

theorem witness_RepliesAndNoticesAreFetched :
    vacant.power = .up ∧ Takes .meter (.setNotices .meter 63) vacant ∧ Takes .meter (.setNotices .meter 64) vacant ∧
    Takes .terminal (.setNotices .terminal 255) vacant ∧ Takes .terminal (.setNotices .terminal 256) vacant := by decide

theorem witness_ReadsAnswerAndChangeNothing :
    Takes .meter (.readClosed 8) idle ∧ requestPort (.readClosed 8) = some .meter ∧ readAnswer idle (.readClosed 8) = some (.notFound, []) ∧
    readAnswer idle (.readClosed 9) = some (.badValue, []) ∧ readAnswer idle (.readJob 2) = some (.badValue, []) ∧
    readAnswer idle .readClock = some (.ok, [0x1B, 0x5E, 0x72]) := by decide

theorem witness_FlagDownOpensTheTrip :
    Takes .meter (.flagDown 0 0) idle ∧ Takes .meter (.flagDown 1 4) idle ∧ (arrived .meter (.flagDown 1 4) idle).trip = none ∧
    (arrived .meter (.flagDown 1 4) idle).tariff.active = some ⟨image, 0⟩ ∧ idle.settings.cab ≠ 0 ∧ idle.settings.fleet ≠ 0 ∧
    idle.settings.k ≠ 0 ∧
    Takes .meter (.flagDown 0 0) running ∧ running.trip.isSome ∧
    ¬(1 = 0 ∨ (1 = 1 ∧ 1 ≤ 5 ∧ 5 ≤ 4)) ∧ State.reset.tariff.active = none ∧ State.reset.trip = none ∧
    ({ idle with settings := { idle.settings with k := 0 } } : State).settings.k = 0 := by decide

theorem witness_FlagDownAbandonsAnAcceptance :
    Takes .meter (.flagDown 0 0) (offering [entryOf 3 1 (.accepting 30000)]) ∧
    (∃ o ∈ (arrived .meter (.flagDown 0 0) (offering [entryOf 3 1 (.accepting 30000)])).offers.entries, o.accepted = true) ∧
    (arrived .meter (.flagDown 0 0) (offering [entryOf 3 1 (.accepting 30000)])).trip = none ∧
    (arrived .meter (.flagDown 0 0) (offering [entryOf 3 1 (.accepting 30000)])).tariff.active = some ⟨image, 0⟩ := by decide

theorem witness_StopFixesTheAmountDue :
    Takes .meter .stop running ∧ (arrived .meter .stop running).trip = some trip ∧ trip.phase = .running ∧
    (arrived .meter .stop running).tariff.active = some ⟨image, 0⟩ ∧ image.inRange = true ∧ 1 ≤ trip.remaining ∧
    ({ running with tariff := TariffStore.cold } : State).tariff.active = none ∧
    Takes .meter .stop { running with tariff := TariffStore.cold } ∧ tripRunning idle = false ∧ Takes .meter .stop idle := by decide

theorem witness_StopOfAFastSecond :
    Takes .meter .stop { running with dist := ⟨0, 201⟩ } ∧ (arrived .meter .stop { running with dist := ⟨0, 201⟩ }).trip = some trip ∧
    (decide (200 < ({ running with dist := ⟨0, 201⟩ } : State).dist.metres) && !trip.speedFault) = true ∧
    min 201 200 = 200 ∧ trip.remaining ≤ 288000 + 200 * (image.band 1).tstep := by decide

theorem witness_ResumeNeedsTheOpenWindow :
    Takes .meter .resume stopped ∧ (arrived .meter .resume stopped).trip = some { trip with phase := .stopped 400 50 } ∧
    (arrived .meter .resume stopped).resumeDue = some 60000 ∧
    Takes .meter .resume { stopped with resumeDue := none } ∧ tripStopped { stopped with resumeDue := none } = true ∧
    Takes .meter .resume running ∧ tripStopped running = false ∧ stopped.power = .up ∧ running.resumeDue = none := by decide

theorem witness_ClearClosesTheTrip :
    Takes .meter .clear stopped ∧ (arrived .meter .clear stopped).trip = some { trip with phase := .stopped 400 50 } ∧
    Takes .meter .clear running ∧ tripStopped running = false := by decide

/-- A closed trip of an amount. -/
def closedOf (total : Nat) (pinned : Bool) : ClosedTrip := ⟨1, ClockReading.unset, ClockReading.unset, total, 0, 900, none, false, pinned, true⟩

theorem witness_MergingLosesNoAmount :
    (closedOf 1 true :: List.replicate 7 (closedOf 5 false)).length ≤ 8 ∧
    (closedOf 1 true :: List.replicate 7 (closedOf 5 false)).countP ClosedTrip.pinned ≤ 1 ∧
    ((closedOf 1 true :: List.replicate 7 (closedOf 5 false)).map ClosedTrip.total).sum ≤ 999999999 ∧
    ((closedOf 1 true :: List.replicate 7 (closedOf 5 false)).map ClosedTrip.extras).sum ≤ 999999999 ∧
    ((closedOf 1 true :: List.replicate 7 (closedOf 5 false)).map ClosedTrip.distance).sum ≤ 999999999 ∧
    ((closedOf 1 true :: List.replicate 7 (closedOf 5 false)).map ClosedTrip.count).sum ≤ 255 ∧
    (closedOf 1 true :: List.replicate 7 (closedOf 5 false)).length = 8 ∧ [closedOf 5 false].length < 8 ∧
    (∀ e ∈ vacant.radio.queue, e.kind ≠ .fareTotal) ∧ (∃ e ∈ (vacant.radio.create .fareTotal).queue, e.kind = .fareTotal) := by decide

/-- The merge of section 3.8: T1 is carried, so of T1 to T8 the entries T2 and T3 are folded at T2's place, and T9 stands last, pinned. -/
theorem test_merge_folds_t2_and_t3 :
    (appendClosed (some 0) (closedOf 1830 true) ([510, 400, 1250, 880, 600, 2140, 720, 950].map (fun n => closedOf n false))).map
      (fun c => (c.count, c.total, c.pinned)) =
      [(1, 510, false), (2, 1650, false), (1, 880, false), (1, 600, false), (1, 2140, false), (1, 720, false), (1, 950, false), (1, 1830, true)] := by
  decide

theorem witness_ExtrasAreCountedAndPriced :
    Takes .meter (.addExtra 1) idle ∧ idle.trip = none ∧ Takes .meter (.addExtra 1) running ∧ running.trip = some trip ∧
    extraMaximum running.tariff.active 1 = some 4 ∧ extraCount 1 trip.extras < 4 ∧ extraMaximum running.tariff.active 0 = none ∧
    extraMaximum running.tariff.active 2 = none ∧ 4 ≤ extraCount 1 [(1, 4)] := by decide

theorem witness_EveryImageCanBeLoadedAndCommitted :
    image.inRange = true ∧ image.version < 65536 ∧ idle.power = .up ∧ bufferPending .meter idle = false := by decide

/-- The part with every part of an image staged. -/
def staged : State :=
  { idle with tariff := { idle.tariff with staged := ⟨some (1, band1, band2), some (band1, band2), some image.schedule, some image.extras⟩ } }

theorem witness_PartsAreStoredAndCommitsChecked :
    Takes .meter (.loadTariffPart 2 [0]) idle ∧ tariffContentLength 2 [0] = true ∧ (stagePart Staged.empty 2 [0]).isSome ∧
    tariffContentLength 2 [9] = false ∧ tariffContentLength 2 (9 :: List.replicate 36 0) = true ∧
    stagePart Staged.empty 2 (9 :: List.replicate 36 0) = none ∧ 3 < 4 ∧ Takes .meter (.commitTariff 7) idle ∧
    idle.tariff.staged.image = none ∧ Takes .meter (.commitTariff 7) staged ∧ staged.tariff.staged.image = some image ∧ staged.trip = none ∧
    ({ staged with trip := some trip } : State).trip.isSome := by decide +kernel

theorem witness_ClockIsSetAndAdvances :
    Takes .meter (.setClock 7 23 59 59) running ∧ running.trip.isSome ∧ Takes .meter (.setClock 7 23 59 59) idle ∧ idle.trip = none ∧
    ¬(1 ≤ 8 ∧ 8 ≤ 7 ∧ 23 ≤ 23 ∧ 59 ≤ 59 ∧ 59 ≤ 59) ∧ State.reset.tariff.clock.isSet = false ∧ idle.tariff.clock.isSet = true ∧
    clockInRange idle.tariff.clock.day idle.tariff.clock.hour idle.tariff.clock.minute idle.tariff.clock.second = true := by decide

theorem witness_InstallationSettingsAreWritten :
    Takes .meter (.calibrate 500) idle ∧ Takes .meter (.calibrate 60000) idle ∧ idle.trip = none ∧ idle.duty.state = .offDuty ∧
    Takes .meter (.calibrate 500) vacant ∧ vacant.duty.state ≠ .offDuty ∧ Takes .meter (.setIdentity 4095 255) idle ∧
    Takes .meter (.setKeyLead 9) idle ∧ Takes .meter (.setStatusInterval 601) idle ∧ Takes .meter (.setUrgentSet 8 30 300) idle ∧
    Takes .meter (.setSustainedSet 1 1 9) idle ∧ Takes .meter (.setAirRate 2400) idle ∧ Takes .meter (.setAlarmVisible 2) idle := by decide

theorem witness_DutyChangesAreReported :
    (offering [entryOf 3 1 (.offered 20000)]).offers.entries = [entryOf 3 1 (.offered 20000)] ∧
    (entryOf 3 1 (.offered 20000)).deadlineDue.isSome ∧
    (filterReason { offering [entryOf 3 1 (.offered 20000)] with duty := assigned.duty } true).isSome := by decide

theorem witness_SigningOnAndOff :
    Takes .terminal .signOn State.reset ∧ (arrived .terminal .signOn State.reset).settings.cab = 0 ∧
    Takes .terminal .signOn vacant ∧ (arrived .terminal .signOn vacant).duty.signedOn = true ∧
    Takes .terminal .signOn idle ∧ (arrived .terminal .signOn idle).duty.signedOn = false ∧ idle.settings.cab ≠ 0 ∧ idle.settings.fleet ≠ 0 ∧
    Takes .terminal .signOff idle ∧ (arrived .terminal .signOff idle).duty.signedOn = false ∧
    Takes .terminal .signOff assigned ∧ (arrived .terminal .signOff assigned).duty.signedOn = true ∧
    (arrived .terminal .signOff assigned).duty.current.isSome ∧
    Takes .terminal .signOff vacant ∧ (arrived .terminal .signOff vacant).duty.current = none ∧
    (arrived .terminal .signOff vacant).duty.next = none ∧ ∀ o ∈ (arrived .terminal .signOff vacant).offers.entries, o.accepted = false := by decide

theorem witness_SoonClearAndCancelClear :
    Takes .terminal (.soonClear 0) running ∧ (arrived .terminal (.soonClear 0) running).duty.state = .hired ∧
    (arrived .terminal (.soonClear 0) running).duty.signedOn = true ∧
    Takes .terminal (.soonClear 5) clearing ∧ (arrived .terminal (.soonClear 5) clearing).duty.soonClear = some (max 1 (min 5 15)) ∧
    Takes .terminal (.soonClear 16) clearing ∧ (arrived .terminal (.soonClear 16) clearing).duty.soonClear ≠ some (max 1 (min 16 15)) ∧
    Takes .terminal (.soonClear 5) vacant ∧ (arrived .terminal (.soonClear 5) vacant).duty.state = .vacant ∧
    Takes .terminal .cancelClear clearing ∧ (arrived .terminal .cancelClear clearing).duty.state = .clearing ∧
    Takes .terminal .cancelClear running ∧ (arrived .terminal .cancelClear running).duty.state ≠ .clearing := by decide

/-- The part ASSIGNED with eight DECLINEs in the Uplink Queue. -/
def crowded : State :=
  { assigned with radio := { Radio.reset with
    queue := (List.range 8).map (fun n => newEntry (.decline (n + 1) .driver) (n + 1)), nextArrival := 9 } }

theorem witness_JobsEndWithoutATrip :
    Takes .terminal .noShow assigned ∧ (arrived .terminal .noShow assigned).duty.state = .assigned ∧
    (arrived .terminal .noShow assigned).duty.current = some job ∧ (arrived .terminal .noShow assigned).radio.generalCount < 8 ∧
    Takes .terminal .noShow crowded ∧ (arrived .terminal .noShow crowded).duty.current.isSome ∧
    8 ≤ (arrived .terminal .noShow crowded).radio.generalCount ∧
    Takes .terminal .noShow vacant ∧ (arrived .terminal .noShow vacant).duty.state ≠ .assigned ∧
    Delivered (.jobCancel (.cab 87) 77) assigned ∧ Delivered (.withdraw (.cab 87) 77) assigned ∧ findOffer 77 assigned = none ∧
    assigned.duty.next = none ∧ assigned.trip = none ∧ job.number = 77 ∧
    Delivered (.jobCancel (.cab 87) 77) stacked ∧ stacked.duty.next = some job ∧ stacked.duty.current = none ∧ stacked.trip = some trip ∧
    ({ stacked with trip := some { trip with job := some ⟨77, false⟩ } } : State).trip = some { trip with job := some ⟨77, false⟩ } ∧
    Delivered (.jobCancel (.cab 87) 77) { running with trip := some { trip with job := some ⟨77, false⟩ } } ∧
    Delivered (.jobCancel (.cab 87) 77) { running with trip := some { trip with job := some ⟨77, true⟩ } } ∧
    slotHolds 77 running.duty.current = false ∧ slotHolds 77 running.duty.next = false ∧
    numberHeld 77 vacant = false ∧ Delivered (.jobCancel (.cab 87) 77) vacant ∧
    findOffer 3 (offering [entryOf 3 1 (.offered 20000)]) = some (entryOf 3 1 (.offered 20000)) ∧
    (entryOf 3 1 (.offered 20000)).final = false ∧ Delivered (.withdraw (.cab 87) 3) (offering [entryOf 3 1 (.offered 20000)]) := by decide

theorem witness_StatusIsRenewedOnPollAndTime :
    Delivered (.poll .all) vacant ∧ vacant.power = .up ∧ vacant.duty.statusDue = some 120000 ∧ vacant.duty.presenceDue = some 30000 ∧
    vacant.duty.presence = .present ∧ idle.power = .up ∧ idle.duty.statusDue = none ∧ idle.duty.presenceDue = none ∧
    (∀ e ∈ vacant.radio.queue, e.kind ≠ .status) ∧ (∃ e ∈ (vacant.radio.create (.status .poll)).queue, e.kind = .status) := by decide

/-- The part VACANT with a zone list and an empty table. -/
def ready : State := offering []

/-- The part VACANT with eight entries, the second the oldest in a final state. -/
def full : State :=
  offering (entryOf 10 1 (.offered 20000) :: entryOf 11 2 .expired :: (List.range 6).map (fun n => entryOf (n + 12) (n + 3) .lost))

theorem witness_OffersAreEntered :
    Delivered (.offer (.cab 87) (fields 3 .directed)) ready ∧ (fields 3 .directed).number ≠ 0 ∧ 1 ≤ (fields 3 .directed).zone ∧
    (fields 3 .directed).zone ≤ 999 ∧
    (fields 3 .directed).dest = .directed ∧ toCab (.cab 87) = true ∧ Delivered (.offer .all (fields 3 .zone)) ready ∧
    (fields 3 .zone).zone ∈ ready.offers.zones ∧ (∀ x ∈ ready.offers.entries, x.accepted = false ∧ x.number ≠ 3) ∧
    numberHeld 3 ready = false ∧ filterReason ready true = none ∧ ready.offers.entries.length < 8 ∧
    Delivered (.offer (.cab 87) (fields 3 .directed)) full ∧ (∀ x ∈ full.offers.entries, x.number ≠ 3) ∧ numberHeld 3 full = false ∧
    filterReason full true = none ∧ 8 ≤ full.offers.entries.length ∧ (full.offers.entries.map Offer.number).Nodup ∧
    full.offers.entries = [entryOf 10 1 (.offered 20000)] ++ entryOf 11 2 .expired :: (List.range 6).map (fun n => entryOf (n + 12) (n + 3) .lost) ∧
    (entryOf 11 2 .expired).final = true ∧ ∀ y ∈ [entryOf 10 1 (.offered 20000)], y.final = false := by decide

theorem witness_OffersAreTurnedAway :
    Delivered (.offer .all (fields 3 .zone)) ready ∧ toCab .all = false ∧ Delivered (.offer .all (fields 3 .zone)) vacant ∧ (fields 3 .zone).zone ∉ vacant.offers.zones ∧
    findOffer 3 (offering [entryOf 3 1 (.declined .driver)]) = some (entryOf 3 1 (.declined .driver)) ∧
    Delivered (.offer (.cab 87) (fields 3 .directed)) (offering [entryOf 3 1 (.declined .driver)]) ∧
    findOffer 3 (offering [entryOf 3 1 .expired]) = some (entryOf 3 1 .expired) ∧ (entryOf 3 1 .expired).reason = none ∧
    Delivered (.offer (.cab 87) (fields 3 .directed)) (offering [entryOf 3 1 .expired]) ∧
    findOffer 77 assigned = none ∧ numberHeld 77 assigned = true ∧ Delivered (.offer (.cab 87) (fields 3 .directed)) assigned ∧
    numberHeld 3 assigned = false ∧ findOffer 3 assigned = none ∧ filterReason assigned true = some .busy ∧
    Delivered (.offer (.cab 87) (fields 3 .directed)) (offering ((List.range 8).map (fun n => entryOf (n + 10) (n + 1) (.offered 20000)))) ∧
    8 ≤ (offering ((List.range 8).map (fun n => entryOf (n + 10) (n + 1) (.offered 20000)))).offers.entries.length ∧
    (∀ x ∈ (offering ((List.range 8).map (fun n => entryOf (n + 10) (n + 1) (.offered 20000)))).offers.entries, x.final = false) ∧
    findOffer 3 (offering ((List.range 8).map (fun n => entryOf (n + 10) (n + 1) (.offered 20000)))) = none ∧
    filterReason (offering ((List.range 8).map (fun n => entryOf (n + 10) (n + 1) (.offered 20000)))) true = none := by decide

theorem witness_ZoneOffersAreRepeatedAndHeld :
    Delivered (.offer .all (fields 3 .zone)) (offering [entryOf 3 1 (.declined .driver)]) ∧
    (fields 3 .zone).zone ∈ (offering [entryOf 3 1 (.declined .driver)]).offers.zones ∧
    Delivered (.offer .all (fields 3 .zone)) (offering [entryOf 4 1 (.accepting 30000)]) ∧
    findOffer 3 (offering [entryOf 4 1 (.accepting 30000)]) = none ∧ numberHeld 3 (offering [entryOf 4 1 (.accepting 30000)]) = false ∧
    filterReason (offering [entryOf 4 1 (.accepting 30000)]) true = none ∧
    (∃ x ∈ (offering [entryOf 4 1 (.accepting 30000)]).offers.entries, x.accepted = true) := by decide

theorem witness_AcceptTakesOneOffer :
    Takes .terminal (.accept 3) ready ∧ findOffer 3 (arrived .terminal (.accept 3) ready) = none ∧
    Takes .terminal (.accept 3) (offering [entryOf 3 1 .expired]) ∧
    findOffer 3 (arrived .terminal (.accept 3) (offering [entryOf 3 1 .expired])) = some (entryOf 3 1 .expired) ∧
    findOffer 3 (arrived .terminal (.accept 3) (offering [entryOf 3 1 .lost])) = some (entryOf 3 1 .lost) ∧ (entryOf 3 1 .lost).deadlineDue = none ∧
    findOffer 3 (arrived .terminal (.accept 3) (offering [entryOf 3 1 (.offered 20000), entryOf 4 2 (.accepting 30000)])) =
      some (entryOf 3 1 (.offered 20000)) ∧
    (entryOf 4 2 (.accepting 30000)).accepted = true ∧ (entryOf 3 1 (.offered 20000)).deadlineDue.isSome ∧
    Takes .terminal (.accept 3) (offering [entryOf 3 1 (.offered 20000), entryOf 4 2 (.offered 20000)]) ∧
    (∀ x ∈ (arrived .terminal (.accept 3) (offering [entryOf 3 1 (.offered 20000), entryOf 4 2 (.offered 20000)])).offers.entries,
      x.accepted = false) ∧
    offerFits vacant.duty true = true ∧ offerFits assigned.duty true = false ∧
    Takes .terminal (.accept 3) { offering [entryOf 3 1 (.offered 20000)] with duty := assigned.duty } := by decide

theorem witness_OffersAreAnsweredAndDismissed :
    Takes .terminal (.decline 3) ready ∧ findOffer 3 (arrived .terminal (.decline 3) ready) = none ∧
    Takes .terminal (.decline 3) (offering [entryOf 3 1 .expired]) ∧
    findOffer 3 (arrived .terminal (.decline 3) (offering [entryOf 3 1 .expired])) = some (entryOf 3 1 .expired) ∧
    findOffer 3 (arrived .terminal (.decline 3) (offering [entryOf 3 1 (.accepting 30000)])) = some (entryOf 3 1 (.accepting 30000)) ∧
    findOffer 3 (arrived .terminal (.decline 3) (offering [entryOf 3 1 (.offered 20000)])) = some (entryOf 3 1 (.offered 20000)) ∧
    Takes .terminal (.dismiss 3) (offering [entryOf 3 1 .lost]) ∧ (entryOf 3 1 .lost).final = true ∧
    (entryOf 3 1 (.offered 20000)).final = false ∧ findOffer 3 (arrived .terminal (.dismiss 3) ready) = none ∧
    findOffer 3 (arrived .terminal (.dismiss 3) (offering [entryOf 3 1 .lost])) = some (entryOf 3 1 .lost) ∧
    findOffer 3 (arrived .terminal (.dismiss 3) (offering [entryOf 3 1 (.offered 20000)])) = some (entryOf 3 1 (.offered 20000)) ∧
    Takes .terminal (.setOfferMode 1) ready ∧ Takes .terminal (.setOfferMode 2) ready ∧
    Takes .terminal (.setZones [1, 999, 1]) ready ∧ Takes .terminal (.setZones [1000]) ready ∧ Takes .terminal (.setZones [0]) ready ∧
    6 < ([1, 2, 3, 4, 5, 6, 7] : List Nat).length ∧ ∀ z ∈ [1, 999, 1], 1 ≤ z ∧ z ≤ 999 := by decide

/-- A queue whose general positions are all taken, by DECLINEs for the numbers 1 to 8. -/
def eightDeclines : Radio := (linked ((List.range 8).map (fun n => queued (.decline (n + 1) .driver) .ready none 0 0 (n + 1)))).radio

theorem witness_AnswersAreQueued :
    (∃ e ∈ eightDeclines.queue, ∃ x, e.content = .decline 8 x) ∧ (∀ e ∈ eightDeclines.queue, ∀ x, e.content ≠ .decline 9 x) ∧
    eightDeclines.queue.countP
      (fun e => decide (e.kind = .jobEvent ∨ e.kind = .receipt ∨ e.kind = .decline ∨ e.kind = .driverMessage)) = 8 ∧
    (∃ e ∈ (linked [queued (.jobEvent .release 7 ClockReading.unset) .ready none 0 0 1]).radio.queue,
      ∃ x, e.content = .jobEvent .release 7 x) ∧
    (∀ e ∈ (linked [queued (.jobEvent .noShow 7 ClockReading.unset) .ready none 0 0 1]).radio.queue,
      ∀ x, e.content ≠ .jobEvent .release 7 x) := by
  refine ⟨⟨_, List.getElem_mem (n := 7) (by decide), .driver, rfl⟩, ?_, by decide, ⟨_, List.mem_singleton.2 rfl, _, rfl⟩, ?_⟩ <;>
    simp [eightDeclines, linked, queued, newEntry, List.range, List.range.loop]

theorem witness_OpenOffersComeToAnEnd :
    findOffer 3 (offering [entryOf 3 1 (.offered 20000)]) = some (entryOf 3 1 (.offered 20000)) ∧
    findOffer 3 (offering [entryOf 3 1 (.awaitingAward 30000)]) = some (entryOf 3 1 (.awaitingAward 30000)) ∧
    (entryOf 3 1 (.awaitingAward 30000)).awardDue = some 30000 ∧ (entryOf 3 1 .lost).deadlineDue = none ∧ (entryOf 3 1 .lost).awardDue = none ∧
    findOffer 3 ready = none ∧ ready.power = .up ∧ Delivered (.lost (.cab 87) 3) (offering [entryOf 3 1 (.offered 20000)]) ∧
    findOffer 3 (offering [entryOf 3 1 (.offered 20000)]) = some (entryOf 3 1 (.offered 20000)) ∧
    Delivered (.lost (.cab 87) 3) (offering [entryOf 3 1 (.awaitingAward 30000)]) ∧
    findOffer 3 (offering [entryOf 3 1 (.awaitingAward 30000)]) = some (entryOf 3 1 (.awaitingAward 30000)) ∧
    (∀ o ∈ findOffer 3 (offering [entryOf 3 1 .lost]), o.final = true) := by decide

theorem witness_AwardsAreThePlacingOfJobs :
    Delivered (.award (.cab 87) 3) assigned ∧ numberHeld 77 assigned = true ∧ numberHeld 3 ready = false ∧
    (∀ o ∈ findOffer 3 ready, o.accepted = false) ∧ Delivered (.award (.cab 87) 3) ready ∧
    Delivered (.award (.cab 87) 3) (offering [entryOf 3 1 (.awaitingAward 30000)]) ∧
    findOffer 3 (offering [entryOf 3 1 (.awaitingAward 30000)]) = some (entryOf 3 1 (.awaitingAward 30000)) ∧
    (entryOf 3 1 (.awaitingAward 30000)).accepted = true ∧ (offering [entryOf 3 1 (.awaitingAward 30000)]).duty.state = .vacant ∧
    numberHeld 3 (offering [entryOf 3 1 (.awaitingAward 30000)]) = false ∧
    Delivered (.award (.cab 87) 3) { running with offers := (offering [entryOf 3 1 (.accepting 30000)]).offers } ∧ running.duty.state = .hired ∧
    running.duty.signedOn = true ∧ running.duty.next = none ∧ clearing.duty.state = .clearing ∧ clearing.duty.next = none ∧
    Delivered (.award (.cab 87) 3) { assigned with offers := (offering [entryOf 3 1 (.accepting 30000)]).offers } ∧ assigned.duty.state = .assigned ∧
    idle.duty.state = .offDuty ∧ ({ running.duty with signedOn := false } : DutyUnit).state = .hired ∧ stacked.duty.state = .hired ∧
    stacked.duty.next.isSome ∧ ({ stacked.duty with state := .clearing } : DutyUnit).next.isSome ∧
    numberHeld 3 { stacked with offers := (offering [entryOf 3 1 (.accepting 30000)]).offers } = false := by decide

theorem witness_MessagesAreStoredReadAndDeleted :
    Delivered (.message .all 9 0 [0x41]) ready ∧ classOf 0 = some .info ∧ classOf 3 = some .broadcast ∧ 1 ≤ ([0x41] : List Byte).length ∧
    (List.replicate 120 (0x41 : Byte)).length ≤ 120 ∧ toCab .all = false ∧ MessageClass.info ≠ .broadcast ∧
    Delivered (.message (.zone 6) 9 0 [0x41]) ready ∧ 6 ∉ ready.offers.zones ∧ Delivered (.message (.zone 5) 9 0 [0x41]) ready ∧ 5 ∈ ready.offers.zones ∧
    Delivered (.message (.cab 87) 9 0 [0x41]) (reading [inboundOf 9 .priority true false]) ∧
    findInbound 9 (reading [inboundOf 9 .priority true false]) = some (inboundOf 9 .priority true false) ∧
    findInbound 9 ready = none ∧ 9 ∉ ready.messages.removed ∧ ready.messages.inbound.length < 16 ∧
    (120 + 31) / 32 + 8 ≤ freeCount ready.pool ∧
    9 ∈ ({ vacant with messages := { MessageStore.reset with removed := [9] } } : State).messages.removed ∧
    16 ≤ (reading ((List.range 16).map (fun n => inboundOf (n + 20) .info false false))).messages.inbound.length ∧
    Takes .terminal (.markRead 9) ready ∧ findInbound 9 (arrived .terminal (.markRead 9) ready) = none ∧
    Takes .terminal (.markRead 9) (reading [inboundOf 9 .priority true false]) ∧ (inboundOf 9 .priority true false).read = true ∧
    findInbound 9 (arrived .terminal (.markRead 9) (reading [inboundOf 9 .info false false])) = some (inboundOf 9 .info false false) ∧
    Takes .terminal (.delete 9) (reading [inboundOf 9 .replyRequired true false]) ∧ (inboundOf 9 .replyRequired true false).replied = false ∧
    findInbound 9 (arrived .terminal (.delete 9) (reading [inboundOf 9 .replyRequired true false])) = some (inboundOf 9 .replyRequired true false) ∧
    findInbound 9 (arrived .terminal (.delete 9) (reading [inboundOf 9 .info true false])) = some (inboundOf 9 .info true false) ∧
    (inboundOf 9 .info true false).cls ≠ .replyRequired ∧ (reading [inboundOf 9 .info true false]).messages.removed.length ≤ 8 := by decide +kernel

/-- A queue with a RECEIPT STORED of message 9 in transmission. -/
def receipting : Radio := (linked [queued (.receipt 9 .stored) .sending (some 3) 0 0 1]).radio

theorem witness_ReceiptsAreQueued :
    (∃ e ∈ receipting.queue, ∃ x, e.content = .receipt 9 x) ∧ (∀ e ∈ receipting.queue, e.kind = .receipt → e.removed = false) ∧
    (∀ e ∈ receipting.queue, ∀ x, e.content ≠ .receipt 10 x) ∧ (∀ e ∈ eightDeclines.queue, ∀ x, e.content ≠ .receipt 9 x) := by
  refine ⟨⟨_, List.mem_singleton.2 rfl, _, rfl⟩, by decide, ?_, ?_⟩ <;>
    simp [receipting, eightDeclines, linked, queued, newEntry, List.range, List.range.loop]

theorem witness_OutboundMessagesGetALocalNumber :
    Takes .terminal (.sendMessage 0 []) vacant ∧ MessageLaw (arrived .terminal (.sendMessage 0 []) vacant) ∧
    ¬((0 = 0 ∧ 1 ≤ ([] : List Byte).length ∧ ([] : List Byte).length ≤ 60) ∨ (1 ≤ 0 ∧ 0 ≤ 31 ∧ ([] : List Byte) = [])) ∧
    Takes .terminal (.sendMessage 31 []) (writing [outboundOf 255 .queued]) ∧
    MessageLaw (arrived .terminal (.sendMessage 31 []) (writing [outboundOf 255 .queued])) ∧
    (writing [outboundOf 255 .queued]).messages.outbound.length < 6 := by decide +kernel

theorem witness_OutboundMessagesNeedRoom :
    Takes .terminal (.sendMessage 0 [0x41]) vacant ∧ (1 + 31) / 32 + 8 ≤ freeCount (arrived .terminal (.sendMessage 0 [0x41]) vacant).pool ∧
    (writing ((List.range 6).map (fun n => outboundOf (n + 1) .waiting))).messages.outbound.length = 6 ∧
    (∀ o ∈ (writing ((List.range 6).map (fun n => outboundOf (n + 1) .waiting))).messages.outbound, o.resolved = false) ∧
    MessageLaw (writing ((List.range 6).map (fun n => outboundOf (n + 1) .waiting))) ∧
    freeCount ({ vacant with pool := List.replicate 64 ⟨some .nextJob, []⟩ } : State).pool < (1 + 31) / 32 + 8 ∧
    (writing (outboundOf 1 .queued :: outboundOf 2 .failed :: [outboundOf 3 .waiting, outboundOf 4 .waiting, outboundOf 5 .waiting,
      outboundOf 6 .waiting])).messages.outbound.length = 6 ∧ (outboundOf 2 .failed).resolved = true ∧ (outboundOf 1 .queued).resolved = false := by decide +kernel

theorem witness_RepliesAndWaitingMessages :
    Takes .terminal (.reply 9 0 [0x41]) (reading [inboundOf 9 .replyRequired true false]) ∧
    MessageLaw (arrived .terminal (.reply 9 0 [0x41]) (reading [inboundOf 9 .replyRequired true false])) ∧
    findInbound 9 (arrived .terminal (.reply 9 0 [0x41]) (reading [inboundOf 9 .replyRequired true false])) =
      some (inboundOf 9 .replyRequired true false) ∧
    (1 + 31) / 32 + 8 ≤ freeCount (reading [inboundOf 9 .replyRequired true false]).pool ∧
    (∀ j < 1, ∃ o ∈ [outboundOf 255 .queued], o.localNumber = (255 - 1 + j) % 255 + 1) ∧ (255 - 1 + 1) % 255 + 1 = 1 ∧
    (writing [outboundOf 1 .queued, outboundOf 2 .waiting]).messages.outbound = [outboundOf 1 .queued] ++ outboundOf 2 .waiting :: [] ∧
    (outboundOf 2 .waiting).state = .waiting ∧ (∀ x ∈ [outboundOf 1 .queued], x.state ≠ .waiting) ∧
    (∀ o ∈ (writing [outboundOf 1 .queued]).messages.outbound, o.state ≠ .waiting) ∧
    (writing []).radio.queue.countP
      (fun e => decide (e.kind = .jobEvent ∨ e.kind = .receipt ∨ e.kind = .decline ∨ e.kind = .driverMessage)) < 8 := by decide +kernel

theorem witness_RepliesAndDismissals :
    Takes .terminal (.reply 9 1 []) (reading [inboundOf 9 .replyRequired true false]) ∧
    findInbound 9 (arrived .terminal (.reply 9 1 []) (reading [inboundOf 9 .replyRequired true false])) =
      some (inboundOf 9 .replyRequired true false) ∧
    findInbound 9 (arrived .terminal (.reply 9 1 []) (reading [inboundOf 9 .broadcast true false])) = some (inboundOf 9 .broadcast true false) ∧
    findInbound 9 (arrived .terminal (.reply 9 1 []) vacant) = none ∧
    Takes .terminal (.dismissOutbound 2) (writing [outboundOf 2 .failed]) ∧
    findOutbound 2 (arrived .terminal (.dismissOutbound 2) (writing [outboundOf 2 .failed])) = some (outboundOf 2 .failed) ∧
    findOutbound 2 (arrived .terminal (.dismissOutbound 2) (writing [outboundOf 2 .queued])) = some (outboundOf 2 .queued) ∧
    findOutbound 2 (arrived .terminal (.dismissOutbound 2) vacant) = none := by decide +kernel

theorem witness_StoredTextsReadBack :
    ((List.replicate 33 (0x41 : Byte)).length + 31) / 32 ≤ freeCount poolFree ∧
    (grantBlocks (.inbound 9) 2 (List.replicate 33 0x41) poolFree).2 = [0, 1] := by decide +kernel

theorem witness_PressesRaiseTheEmergency :
    armed.power = .up ∧ linePresses armed.settings.sens0 armed.alarm.line0 (some .low) = true ∧ armed.alarm.record.state = .normal ∧
    armed.radio.link ≠ .lost ∧ (linePresses armed.settings.sens0 armed.alarm.line0 none || linePresses armed.settings.sens1 armed.alarm.line1 none) = false ∧
    linePresses alerting.settings.sens0 alerting.alarm.line0 (some .low) = true ∧ alerting.alarm.record.state ≠ .normal ∧
    inMark alerting = true ∧ inMark spacing = false := by decide

/-- The part, with line ALM0 armed, transmitting a STATUS that its owner refreshed. -/
def sendingRefreshed : State :=
  { sending with radio := { sending.radio with queue := [{ queued (.status .job) .sending (some 3) 1 0 1 with refreshed := true }] } }

/-- The part, with line ALM0 armed, transmitting a STATUS that its owner removed, with the one to be created after it. -/
def sendingLeft : State :=
  { sending with radio := { sending.radio with
    queue := [{ queued (.status .job) .sending (some 3) 1 0 1 with removed := true, deferred := some (.status .poll) }] } }

theorem witness_PressesCutASlotOff :
    linePresses sending.settings.sens0 sending.alarm.line0 (some .low) = true ∧ sending.alarm.record.state = .normal ∧
    slotTransmission sending = true ∧ sending.radio.blindWaiting = [] ∧ slotTransmission armed = false ∧
    sending.radio.tx.map Transmission.kind = some (.entry 1) ∧
    findEntry 1 sending = some (queued (.decline 6 .driver) .sending (some 3) 0 0 1) ∧
    findEntry 1 sendingRefreshed = some { queued (.status .job) .sending (some 3) 1 0 1 with refreshed := true } ∧
    findEntry 1 sendingLeft =
      some { queued (.status .job) .sending (some 3) 1 0 1 with removed := true, deferred := some (.status .poll) } ∧
    linePresses seen.settings.sens0 seen.alarm.line0 (some .low) = true ∧ seen.alarm.record.beaconSet ≠ .urgent ∧ inMark seen = true ∧
    linePresses spacing.settings.sens0 spacing.alarm.line0 (some .low) = true ∧ spacing.alarm.record.state ≠ .normal := by decide

/-- The queue of the worked sequence of section 8.3, with one offer OFFERED and one accepted. -/
def pressed : State :=
  let radio := (linked [queued (.status .duty) .sending (some 9) 1 0 1, queued .fareTotal .ready none 0 0 2,
    queued (.decline 6040 .driver) .backoff (some 5) 1 2 3, queued (.receipt 910 .stored) .ready none 0 0 4]).radio
  { armed with
    offers := (offering [entryOf 3 1 (.offered 20000), entryOf 4 2 (.accepting 30000)]).offers
    radio := { radio with tx := some ⟨.entry 1, [0x9C], 0, 60⟩ } }

theorem test_press_keeps_the_queue :
    after (.alarmLineLevel (some .low) none) pressed (fun t => decide (
      t.radio.queue.map (fun e => (e.content, e.state, e.seq, e.retry, e.backoff)) =
        [(.status .duty, .ready, some 9, 1, 0), (.fareTotal, .ready, none, 0, 0), (.decline 6040 .driver, .backoff, some 5, 1, 2),
         (.receipt 910 .stored, .ready, none, 0, 0), (.decline 3 .unavailable, .ready, none, 0, 0), (.alert false, .ready, none, 0, 0)] ∧
      t.offers.entries.map Offer.state = [.declined .unavailable, .accepting 30000])) = true := by decide

theorem witness_AlarmLinesArmStickAndAreSet :
    idle.power = .up ∧ activeLevel (lineSensitivity .alm0 idle) ≠ some .high ∧ (lineState .alm0 idle).armed = false ∧
    activeLevel (lineSensitivity .alm0 idle) = some .low ∧ (lineState .alm0 idle).stuck = false ∧ (lineState .alm0 idle).level = none ∧
    (lineState .alm0 { idle with alarm := { idle.alarm with line0 := ⟨some .low, false, true⟩ } }).stuck = true ∧
    activeLevel (lineSensitivity .alm1 { idle with settings := { idle.settings with sens1 := .both } }) = none ∧
    Takes .meter (.setSensitivity .alm0 3) vacant ∧ vacant.duty.state ≠ .offDuty ∧ Takes .meter (.setSensitivity .alm0 4) idle ∧
    idle.duty.state = .offDuty ∧ idle.alarm.record.state = .normal ∧ sensitivityOf 3 = some (lineSensitivity .alm0 idle) ∧
    sensitivityOf 0 = some .falling ∧ Sensitivity.falling ≠ lineSensitivity .alm0 idle := by decide

theorem witness_EmergenciesAreEnded :
    alerting.power = .up ∧ alerting.alarm.cancelDue = some 20000 ∧ seen.alarm.cancelDue = none ∧
    Takes .terminal .alarmCancel idle ∧ (arrived .terminal .alarmCancel idle).alarm.record.state = .normal ∧
    Takes .terminal .alarmCancel seen ∧ (arrived .terminal .alarmCancel seen).alarm.record.state = .seen ∧
    Takes .terminal .alarmCancel alerting ∧ (arrived .terminal .alarmCancel alerting).alarm.record.state = .alerting ∧
    (arrived .terminal .alarmCancel alerting).alarm.record.cancelOpen = true ∧
    Delivered (.alertSeen (.cab 87)) alerting ∧ alerting.alarm.record.state = .alerting ∧ Delivered (.alertSeen (.cab 87)) seen ∧
    seen.alarm.record.state ≠ .alerting ∧ idle.alarm.record.state = .normal ∧ Delivered (.alertSeen (.cab 87)) idle ∧
    Delivered (.standDown (.cab 87)) seen ∧ seen.alarm.record.state ≠ .normal ∧ Delivered (.standDown (.cab 87)) idle ∧
    Delivered (.standDown .all) alerting ∧ toCab .all = false ∧ Delivered (.alertSeen .all) alerting ∧ Delivered (.alertSeen (.zone 999)) alerting ∧ toCab (.zone 999) = false := by decide

theorem witness_BeaconHoldSetsTheHoldCount :
    Delivered (.beaconHold (.cab 87) 4) alerting ∧ toCab (.cab 87) = true ∧ alerting.alarm.record.state ≠ .normal ∧
    Delivered (.beaconHold (.cab 87) 4) idle ∧ idle.alarm.record.state = .normal ∧ Delivered (.beaconHold .all 4) alerting ∧ toCab .all = false := by decide

theorem witness_BeaconRunsItsCycles :
    spacing.power = .up ∧ spacing.alarm.record.state ≠ .normal ∧ spacing.alarm.record.position = some (3, .space) ∧
    spacing.alarm.cycle = some ⟨3, 4, 20, false, 2, 4000⟩ ∧ alerting.alarm.record.state ≠ .normal ∧
    alerting.alarm.record.position = some (1, .mark) ∧ alerting.alarm.cycle = some ⟨3, 4, 20, false, 2, 4000⟩ ∧
    idle.alarm.record.state = .normal := by decide

theorem witness_AlertsAreMade :
    armed.radio.link ≠ .lost ∧ (∀ e ∈ armed.radio.queue, e.kind ≠ .alert) ∧
    (∃ e ∈ (linked [queued (.alert false) .awaitingAck (some 3) 2 0 1]).radio.queue, e.kind = .alert ∧ e.state ≠ .sending) ∧
    (∃ e ∈ (linked [queued (.alert false) .sending (some 3) 2 0 1]).radio.queue, e.kind = .alert ∧ e.state = .sending) ∧
    idle.radio.link = .lost ∧ idle.settings.cab ≠ 0 ∧ idle.settings.fleet ≠ 0 ∧ idle.radio.tx = none ∧
    ({ idle with radio := { idle.radio with tx := some ⟨.blind, [0x9C], 0, 60⟩ } } : State).radio.tx ≠ none := by decide

/-- The part awaiting acknowledgement of a JOB EVENT under sequence 6 and of an ALERT under 7. -/
def awaiting : State :=
  linked [queued (.jobEvent .noShow 77 ClockReading.unset) .awaitingAck (some 6) 5 0 1, queued (.alert false) .awaitingAck (some 7) 0 0 2]

/-- A POLL's valid head: cycle 41, four slots of 80 ms, reserved ones of 200 ms. -/
def head : HeadFields := ⟨41, 4, 80, 200, [], [(87, 6)]⟩

theorem witness_HeadsOpenTheCycle :
    Delivered (.cycleHead .all head) awaiting ∧ QueueLaw awaiting ∧ headValid .all head = true ∧
    headValid .all ⟨255, 12, 400, 1000, [87, 305, 87, 4095], [(87, 6), (4095, 15)]⟩ = true ∧ headValid .all ⟨41, 13, 80, 200, [], []⟩ = false ∧
    headValid (.cab 87) head = false ∧ Delivered (.cycleHead (.cab 87) head) (linked []) ∧ QueueLaw (linked []) :=
  ⟨by decide, by decide, by decide, by decide, by decide, by decide, by decide, by decide⟩

theorem witness_AcknowledgementsFindTheirEntry :
    305 ≠ awaiting.settings.cab ∧ (∀ y ∈ awaiting.radio.queue, y.seq ≠ some 5) ∧ 87 = awaiting.settings.cab ∧
    (∀ y ∈ awaiting.radio.queue, y.state = .awaitingAck ∧ y.seq = some 6 →
      y = queued (.jobEvent .noShow 77 ClockReading.unset) .awaitingAck (some 6) 5 0 1) := by decide

theorem witness_OwnersActAtAHead :
    findEntry 1 awaiting = some (queued (.jobEvent .noShow 77 ClockReading.unset) .awaitingAck (some 6) 5 0 1) ∧
    (queued (.jobEvent .noShow 77 ClockReading.unset) .awaitingAck (some 6) 5 0 1).state = .awaitingAck ∧
    findEntry 2 awaiting = some (queued (.alert false) .awaitingAck (some 7) 0 0 2) ∧
    (queued (.alert false) .awaitingAck (some 7) 0 0 2).kind = .alert ∧
    retryLimit (queued (.jobEvent .noShow 77 ClockReading.unset) .awaitingAck (some 6) 5 0 1).kind = some 5 ∧
    findEntry 1 (linked [queued (.decline 6 .driver) .awaitingAck (some 3) 1 0 1]) = some (queued (.decline 6 .driver) .awaitingAck (some 3) 1 0 1) ∧
    retryLimit (queued (.decline 6 .driver) .awaitingAck (some 3) 1 0 1).kind = some 2 ∧
    findEntry 1 (linked [queued (.accept 6) .ready (some 3) 1 0 1]) = some (queued (.accept 6) .ready (some 3) 1 0 1) ∧
    ({ linked [] with closed := [{ closedOf 1 true with reported := true }, closedOf 5 false] } : State).closed =
      [{ closedOf 1 true with reported := true }] ++ closedOf 5 false :: [] ∧ (closedOf 5 false).reported = false ∧
    findOutbound 255 (writing [outboundOf 255 .queued]) = some (outboundOf 255 .queued) := by decide

theorem witness_BackoffsRetriesAndLinkLoss :
    (linked []).power = .up ∧ idle.radio.link = .lost ∧ (linked [queued (.decline 6 .driver) .backoff (some 3) 1 1 1]).radio.link ≠ .lost ∧
    findEntry 1 (linked [queued (.decline 6 .driver) .backoff (some 3) 1 1 1]) = some (queued (.decline 6 .driver) .backoff (some 3) 1 1 1) ∧
    (queued (.decline 6 .driver) .backoff (some 3) 1 1 1).backoff ≤ 1 ∧
    findEntry 1 (linked [queued (.decline 6 .driver) .awaitingAck (some 3) 2 0 1]) = some (queued (.decline 6 .driver) .awaitingAck (some 3) 2 0 1) ∧
    retryLimit (queued (.decline 6 .driver) .awaitingAck (some 3) 2 0 1).kind = some 2 ∧ findEntry 1 (linked []) = none ∧
    (linked []).radio.linkDue = some 10000 ∧ slotTransmission (linked []) = false ∧ (linked []).radio.link ≠ .lost ∧
    idle.radio.linkDue = none := by decide

/-- The part transmitting a FARE TOTAL while a blind frame waits for KEY. -/
def sendingTotal : State :=
  { linked [queued .fareTotal .sending (some 3) 0 0 1] with
    closed := [{ closedOf 1 true with reported := true }, closedOf 5 false]
    radio := { (linked [queued .fareTotal .sending (some 3) 0 0 1]).radio with tx := some ⟨.entry 1, [0x9C], 0, 60⟩, blindWaiting := [[0x9C]] } }

/-- The part transmitting a STATUS that its owner removed, with the one to be created after it. -/
def sendingRemoved : State :=
  { linked [] with radio := { (linked [{ queued (.status .poll) .sending (some 3) 0 0 1 with removed := true, deferred := some (.status .job) }]).radio with
      tx := some ⟨.entry 1, [0x9C], 0, 60⟩ } }

theorem witness_SlotsSendTheFirstCandidate :
    (linked []).power = .up ∧ (linked []).radio.plan = some ⟨0, 4, 80, 200, [87, 305, 87], 2, false, 0⟩ ∧ (linked []).radio.tx = none ∧
    identitySet (linked []) = true ∧ (linked []).now ≤ 0 + 2 * 80 ∧ 0 + 2 * 80 < ({ linked [] with now := 161 } : State).now ∧
    (linked []).now ≤ 0 + 4 * 80 + 2 * 200 ∧
    firstOf Levels.default (contentionCandidates (linked [queued (.decline 6 .driver) .ready none 0 0 1, queued (.accept 6) .ready none 0 0 2]) 80) =
      some (queued (.accept 6) .ready none 0 0 2) ∧
    contentionCandidates (linked [queued .fareTotal .ready none 0 0 1]) 80 = [] ∧
    wantsReservation 80 (linked [queued .fareTotal .ready none 0 0 1]) = true ∧ wantsReservation 80 (linked []) = false ∧
    ([87, 305, 87] : List Nat)[2]? = some (linked []).settings.cab ∧ ([87, 305, 87] : List Nat)[1]? ≠ some (linked []).settings.cab ∧
    firstOf Levels.default (reservedCandidates (linked [queued .fareTotal .ready none 0 0 1]) 200) = some (queued .fareTotal .ready none 0 0 1) ∧
    reservedCandidates (linked []) 200 = [] ∧ queued (.accept 6) .ready none 0 0 2 ∈ (linked [queued (.accept 6) .ready none 0 0 2]).radio.queue := by
  decide

theorem witness_LevelsOfTheOrder : ∀ k, k ≠ .alert → Levels.default.get k ≤ 3 := by
  intro k
  cases k <;> decide

/-- A queue that holds the sequences 15 and 0, of which the next one is 15. -/
def wrapping : State :=
  { linked [queued (.alert false) .awaitingAck (some 15) 0 0 1, queued (.accept 6) .ready none 0 0 2, queued (.decline 6 .driver) .ready (some 0) 1 0 3] with
    radio := { (linked [queued (.alert false) .awaitingAck (some 15) 0 0 1, queued (.accept 6) .ready none 0 0 2,
      queued (.decline 6 .driver) .ready (some 0) 1 0 3]).radio with nextSeq := 15 } }

theorem witness_SequencesAreGivenAndKept :
    QueueLaw wrapping ∧ queued (.accept 6) .ready none 0 0 2 ∈ wrapping.radio.queue ∧ (queued (.accept 6) .ready none 0 0 2).seq = none ∧
    wrapping.radio.queue.length ≤ 12 ∧ wrapping.radio.nextSeq < 16 ∧ sequenceFor wrapping.radio (queued (.accept 6) .ready none 0 0 2) = 1 ∧
    queued (.decline 6 .driver) .ready (some 0) 1 0 3 ∈ wrapping.radio.queue ∧
    (queued (.decline 6 .driver) .ready (some 0) 1 0 3).seq = some 0 := by decide

theorem witness_TransmissionsEnd :
    sending.power = .up ∧ sending.radio.tx = some ⟨.entry 1, [0x9C], 0, 60⟩ ∧
    findEntry 1 sending = some (queued (.decline 6 .driver) .sending (some 3) 0 0 1) ∧
    (queued (.decline 6 .driver) .sending (some 3) 0 0 1).removed = false ∧
    sendingRemoved.radio.tx = some ⟨.entry 1, [0x9C], 0, 60⟩ ∧ ((findEntry 1 sendingRemoved).map Entry.removed) = some true ∧
    sendingTotal.radio.tx = some ⟨.entry 1, [0x9C], 0, 60⟩ ∧ findEntry 1 sendingTotal = some (queued .fareTotal .sending (some 3) 0 0 1) ∧
    sendingTotal.closed = [{ closedOf 1 true with reported := true }] ++ closedOf 5 false :: [] ∧ carriedIndex sendingTotal = some 1 ∧
    (∀ x ∈ [{ closedOf 1 true with reported := true }], x.reported = true) ∧ (closedOf 5 false).reported = false ∧
    ({ sending with radio := { sending.radio with tx := some ⟨.blind, [0x9C], 0, 60⟩ } } : State).radio.tx = some ⟨.blind, [0x9C], 0, 60⟩ := by decide

theorem witness_UnheardFramesAreDropped :
    idle.power = .up ∧ downlinkAddress (.poll (.cab 88)) = some (.cab 88) ∧ 88 ≠ idle.settings.cab ∧ State.reset.settings.fleet = 0 ∧
    sending.radio.tx.isSome ∧ airFramer 12 [0x9C, 0x6B] = none ∧ idle.radio.tx = none ∧
    ({ idle with radio := { idle.radio with blankedUntil := some 20 } } : State).now < 20 + (downlinkBytes (.poll .all) * 8000 + 4800 - 1) / 4800 ∧
    airFramer idle.settings.fleet ([0x9C, 0x6B, 0x0C, 0x01, 0x5E, 0xC0, 0x00] ++ natBytes 2 (crc16 [0x0C, 0x01, 0x5E, 0xC0, 0x00]).toNat) =
      some (.poll (.cab 87)) := by decide +kernel

theorem witness_MalformedFramesAreHeard :
    hears idle (.award (.zone 5) 7) = true ∧ toCab (.zone 5) = false ∧ hears idle (.lost (.cab 87) 0) = true ∧
    hears idle (.offer (.cab 87) { fields 3 .directed with zone := 1000 }) = true ∧ 999 < ({ fields 3 .directed with zone := 1000 } : OfferFields).zone ∧
    hears idle (.message (.cab 87) 9 4 [0x41]) = true ∧ 3 < 4 ∧ hears idle (.message (.cab 87) 0 0 []) = true := by decide

theorem witness_PositionAndPrioritiesAreHeld :
    Takes .terminal (.setPosition 9000000 (-18000000)) vacant ∧ Takes .terminal (.setPosition 9000001 0) vacant ∧
    ¬(-9000000 ≤ (9000001 : Int) ∧ (9000001 : Int) ≤ 9000000 ∧ -18000000 ≤ (0 : Int) ∧ (0 : Int) ≤ 18000000) ∧
    Takes .terminal (.setPriority 1 0) vacant ∧ Takes .terminal (.setPriority 9 0) vacant ∧ Takes .terminal (.setPriority 2 0) vacant ∧
    levelKindOf 2 = some .accept ∧ levelKindOf 8 = some .driverMessage ∧
    (arrived .terminal (.setPriority 2 0) vacant).alarm.record.state = .normal ∧ Takes .terminal (.setPriority 8 3) alerting ∧
    (arrived .terminal (.setPriority 8 3) alerting).alarm.record.state ≠ .normal := by decide

theorem witness_UplinkFramesHaveTheirLengths : ∀ o ∈ (writing [outboundOf 14 .queued]).messages.outbound, ∀ ref, o.content = .text ref → ref.length ≤ 60 := by
  intro o ho ref h
  simp [writing, outboundOf] at ho
  simp [ho] at h

theorem witness_SupplyLossAndStarts :
    down.power = .down ∧ Instr.poll .all ≠ .clockTick ∧ Instr.poll .all ≠ .start ∧ (∀ f, Instr.poll .all ≠ .vmainLossOrReset f) ∧
    (sealDomain down).domainCheck = computeDomainCheck (sealDomain down) ∧
    (domainFate .lost down).domainCheck ≠ computeDomainCheck (domainFate .lost down) ∧ StartReach.trip ≠ .kind ∧
    (sealDomain { stopped with power := .down }).domainCheck = computeDomainCheck (sealDomain { stopped with power := .down }) ∧
    (sealDomain { running with power := .down }).trip = some trip ∧ trip.phase = .running ∧
    (sealDomain { running with power := .down }).tariff.active = some ⟨image, 0⟩ ∧
    Takes .meter .clearFaults idle ∧ idle.trip = none ∧ Takes .meter .clearFaults running ∧ running.trip.isSome :=
  ⟨by decide, by decide, by decide, by intro f; simp, domainCheck_sealDomain down, of_decide_eq_false (domainAgrees_lost down), by decide,
    domainCheck_sealDomain _, rfl, rfl, rfl, by decide,
    by decide, by decide, by decide⟩

theorem witness_WarmStartsContinue :
    (∀ s, (sealDomain s).domainCheck = computeDomainCheck (sealDomain s)) ∧ decide ((sealDomain alerting).alarm.record.state ≠ .normal) = true ∧
    tripRunning (sealDomain alerting) = true ∧
    (sealDomain spacing).alarm.record.hold = 2 ∧ decide ((sealDomain idle).alarm.record.state ≠ .normal) = false ∧
    (sealDomain stopped).trip = some { trip with phase := .stopped 400 50 } ∧ tripRunning (sealDomain stopped) = false :=
  ⟨domainCheck_sealDomain, by decide, by decide, rfl, by decide, rfl, by decide⟩

end Sys2Proof.Tests
end

section
/-! PROOFS. The Fare Engine (01): the count of n pulses on DIST (R1), and RESUME with its window (R18, R42, R43). -/

namespace Sys2Proof.Machine

open Sys2Proof

/-! ## One pulse on DIST (R1) -/

/-- What DIST_PULSE does while the part is supplied. -/
theorem exec_distPulse_up {s : State} (hu : s.power = .up) :
    exec .distPulse s = .next (sealDomain (if s.settings.k = 0 then s else takePulse s)) :=
  whenUp_up (f := fun s => if s.settings.k = 0 then s else takePulse s) hu

@[simp] theorem takePulse_remainder (s : State) : (takePulse s).dist.remainder = (s.dist.remainder + 1000) % s.settings.k := rfl

@[simp] theorem takePulse_distance (s : State) :
    (takePulse s).totals.distance = satAdd Config.countMax s.totals.distance ((s.dist.remainder + 1000) / s.settings.k) := rfl

/-! ## n pulses on DIST (R1) -/

/-- Saturating sums to one bound add up. -/
theorem satAdd_satAdd (bound a b c : Nat) : satAdd bound (satAdd bound a b) c = satAdd bound a (b + c) := by
  unfold satAdd
  omega

/-- A pulse on the remainder of x counts what x + 1,000 holds of K beyond what x held. -/
theorem mod_add_div_add_div (x y k : Nat) (hk : k ≠ 0) : x / k + (x % k + y) / k = (x + y) / k := by
  have held : x + y = k * (x / k) + (x % k + y) := by rw [← Nat.add_assoc, Nat.div_add_mod]
  rw [held, Nat.mul_add_div (Nat.pos_of_ne_zero hk)]

section
variable {s : State} (hu : s.power = .up)
include hu

/-- Pulses touch the Distance Counter and the totalizers alone. -/
theorem afterPulses_frame (n : Nat) : changesOnly [.totals, .dist] s (afterPulses n s) := by
  induction n with
  | zero => exact changesOnly_refl _ s
  | succ n ih =>
    have up : (afterPulses n s).power = .up := (ih .power (by decide)).trans hu
    simp only [afterPulses, exec_distPulse_up up]
    refine changesOnly_trans ih (changesOnly_trans ?_ (changesOnly_mono (sealDomain_frame _) (by simp)))
    exact changesOnly_ite (changesOnly_refl _ _) (takePulse_frame _)

/-- The calibration under which each pulse of the train is counted is that of its start. -/
theorem afterPulses_settings (n : Nat) : (afterPulses n s).settings = s.settings := afterPulses_frame hu n .settings (by decide)

/-- One pulse more, under the calibration of the start. -/
theorem afterPulses_succ (n : Nat) : afterPulses (n + 1) s =
    sealDomain (if s.settings.k = 0 then afterPulses n s else takePulse (afterPulses n s)) := by
  have up : (afterPulses n s).power = .up := (afterPulses_frame hu n .power (by decide)).trans hu
  simp only [afterPulses, exec_distPulse_up up, afterPulses_settings hu]

/-- While K is unset, pulses are ignored. -/
theorem afterPulses_unset (hk : s.settings.k = 0) (n : Nat) : changesOnly [] s (afterPulses n s) := by
  induction n with
  | zero => exact changesOnly_refl _ s
  | succ n ih =>
    rw [afterPulses_succ hu, if_pos hk]
    exact changesOnly_trans ih (sealDomain_frame _)

/-- The remainder after n pulses, from any remainder below K. -/
theorem afterPulses_remainder (hk : s.settings.k ≠ 0) (hr : s.dist.remainder < s.settings.k) (n : Nat) :
    (afterPulses n s).dist.remainder = (s.dist.remainder + n * 1000) % s.settings.k := by
  induction n with
  | zero => simp [afterPulses, Nat.mod_eq_of_lt hr]
  | succ n ih =>
    rw [afterPulses_succ hu, if_neg hk, sealDomain_dist, takePulse_remainder, afterPulses_settings hu, ih, Nat.mod_add_mod]
    congr 1
    omega

/-- The total distance after n pulses, from any remainder below K. -/
theorem afterPulses_distance (hk : s.settings.k ≠ 0) (hr : s.dist.remainder < s.settings.k) (hd : s.totals.distance ≤ 999999999) (n : Nat) :
    (afterPulses n s).totals.distance = satAdd Config.countMax s.totals.distance ((s.dist.remainder + n * 1000) / s.settings.k) := by
  induction n with
  | zero => simp [afterPulses, satAdd, Nat.div_eq_of_lt hr, hd]
  | succ n ih =>
    have counted := mod_add_div_add_div (s.dist.remainder + n * 1000) 1000 s.settings.k hk
    rw [Nat.add_assoc, ← Nat.succ_mul] at counted
    rw [afterPulses_succ hu, if_neg hk, sealDomain_totals, takePulse_distance, afterPulses_settings hu, afterPulses_remainder hu hk hr, ih,
      satAdd_satAdd, counted]

end

/-- Settles O17, by induction on the number of pulses, from any remainder below K. -/
theorem pulsesCountByCalibration : Obligations.PulsesCountByCalibration := by
  intro n s hu
  refine ⟨fun hk => afterPulses_unset hu hk n, fun hk hr => ?_, fun hk h0 hd => ?_⟩
  · rw [afterPulses_remainder hu hk hr]
    exact Nat.mod_lt _ (Nat.pos_of_ne_zero hk)
  · have hr : s.dist.remainder < s.settings.k := by omega
    rw [afterPulses_remainder hu hk hr, afterPulses_distance hu hk hr hd, h0, Nat.zero_add]
    exact ⟨Nat.mod_eq_sub .., rfl⟩

/-! ## RESUME and the resume window (R42, R43) -/

/-- The trip state is STOPPED exactly when there is a trip and its phase is. -/
theorem tripStopped_iff (s : State) : tripStopped s = true ↔ ∃ t total uplift, s.trip = some t ∧ t.phase = .stopped total uplift := by
  unfold tripStopped tripCode
  cases s.trip with
  | none => simp
  | some t => cases h : t.phase <;> simp [h]

/-- In the open window the trip runs on. -/
theorem resume_of_open {s : State} {t : Trip} {total uplift due : Nat} (ht : s.trip = some t) (hp : t.phase = .stopped total uplift)
    (hd : s.resumeDue = some due) : resume s = done .ok (takeResume t s) := by simp [resume, ht, hp, hd]

/-- Once the window is closed, it is too late. -/
theorem resume_of_closed {s : State} (hs : tripStopped s = true) (hd : s.resumeDue = none) : resume s = done .tooLate s := by
  obtain ⟨t, total, uplift, ht, hp⟩ := (tripStopped_iff s).mp hs
  simp [resume, ht, hp, hd]

/-- Without a STOPPED trip there is nothing to resume. -/
theorem resume_of_not_stopped {s : State} (hs : tripStopped s = false) : resume s = done .refusedState s := by
  unfold resume
  split
  · rfl
  · rename_i t ht
    split
    · rfl
    · rename_i total uplift hp
      exact absurd ((tripStopped_iff s).mpr ⟨t, total, uplift, ht, hp⟩) (by simp [hs])

/-- The expiry of an open window. -/
theorem takeResumeExpiry_of_open {s : State} {due : Nat} (hd : s.resumeDue = some due) :
    takeResumeExpiry s = { s with now := max s.now due, resumeDue := none } := by simp [takeResumeExpiry, hd, reach]

/-- The expiry of a window that is closed. -/
theorem takeResumeExpiry_of_closed {s : State} (hd : s.resumeDue = none) : takeResumeExpiry s = s := by simp [takeResumeExpiry, hd]

/-- Settles O27, by the cases of the trip's phase and of the window. -/
theorem resumeNeedsTheOpenWindow : Obligations.ResumeNeedsTheOpenWindow := by
  refine ⟨fun s u takes hu => ?_, fun s up => ?_⟩
  · have replies := exec_of_takes (owner := resume) takes hu rfl
    refine ⟨fun t total uplift due ht hp hd => ?_, fun hs hd => ?_, fun hs => ?_⟩
    · rw [replies, resume_of_open ht hp hd]
      rfl
    · rw [replies, resume_of_closed hs hd]
      rfl
    · rw [replies, resume_of_not_stopped hs]
      rfl
  · have expires : exec .resumeWindowExpiry s = .next (sealDomain (takeResumeExpiry s)) := whenUp_up up
    refine ⟨fun due hd => ?_, fun hd => ?_⟩
    · rw [expires, takeResumeExpiry_of_open hd]
    · rw [expires, takeResumeExpiry_of_closed hd]

end Sys2Proof.Machine
end

section
/-! PROOFS. The calendar clock (02): SET CLOCK (R33), and the tick with its carries (R32). -/

namespace Sys2Proof.Machine

open Sys2Proof

/-! ## SET CLOCK (R33) -/

/-- The ranges of R32, as bounds. -/
theorem clockInRange_iff (d h m x : Nat) : clockInRange d h m x = true ↔ 1 ≤ d ∧ d ≤ 7 ∧ h ≤ 23 ∧ m ≤ 59 ∧ x ≤ 59 := by
  simp [clockInRange, within, and_assoc]

section
variable {s : State} {d h m x : Nat}

/-- During a trip the clock is not set. -/
theorem setClock_of_trip (ht : s.trip.isSome) : setClock d h m x s = done .refusedState s := if_pos ht

/-- While IDLE the clock takes values in range, and its unset mark is cleared. -/
theorem setClock_of_inRange (ht : s.trip = none) (hr : clockInRange d h m x = true) : setClock d h m x s =
    done .ok { s with tariff := { s.tariff with clock := ⟨true, d, h, m, x⟩, clockUnsetMark := false } } := by
  simp [setClock, ht, hr]

/-- While IDLE a value out of range is refused. -/
theorem setClock_of_not_inRange (ht : s.trip = none) (hr : ¬clockInRange d h m x = true) :
    setClock d h m x s = done .badValue s := by simp [setClock, ht, hr]

end

/-! ## The tick (R32) -/

/-- A tick leaves a clock set or unset. -/
@[simp] theorem ClockReading.tick_isSet (c : ClockReading) : c.tick.isSet = c.isSet := by
  unfold ClockReading.tick
  split_ifs <;> rfl

/-- A tick of a reading in range is the next second of the week of 604,800, in range again: one case for each carry of R32. -/
theorem ClockReading.tick_next {c : ClockReading} (hc : clockInRange c.day c.hour c.minute c.second = true) :
    clockInRange c.tick.day c.tick.hour c.tick.minute c.tick.second = true ∧ c.tick.secondOfWeek = (c.secondOfWeek + 1) % 604800 := by
  rw [clockInRange_iff] at hc ⊢
  unfold ClockReading.secondOfWeek ClockReading.tick
  split_ifs with second minute hour day <;> dsimp only
  · omega -- within the minute
  · omega -- to the next minute
  · omega -- to the next hour
  · omega -- to the next day
  · omega -- to the next week

/-- An unset clock stands, with or without VMAIN. -/
theorem exec_clockTick_unset {s : State} (hs : s.tariff.clock.isSet = false) : exec .clockTick s = .next s := by
  simp [exec, execClockTick, hs]

/-- A set clock ticks, with or without VMAIN. -/
theorem exec_clockTick_set {s : State} (hs : s.tariff.clock.isSet = true) :
    exec .clockTick s = .next { s with tariff := { s.tariff with clock := s.tariff.clock.tick } } := by
  simp [exec, execClockTick, hs]

/-- Settles O33, by the cases of SET CLOCK and by the carries of the tick. -/
theorem clockIsSetAndAdvances : Obligations.ClockIsSetAndAdvances := by
  refine ⟨fun d h m x s u takes hu => ?_, fun s => ⟨exec_clockTick_unset, fun hs => ?_⟩⟩
  · have replies := exec_of_takes (owner := setClock d h m x) takes hu rfl
    rw [← clockInRange_iff, replies]
    refine ⟨fun ht => ?_, fun ht hr => ?_, fun ht hr => ?_⟩
    · rw [setClock_of_trip ht]
      rfl
    · rw [setClock_of_inRange ht hr]
      rfl
    · rw [setClock_of_not_inRange ht hr]
      rfl
  · exact ⟨_, exec_clockTick_set hs, by rw [ClockReading.tick_isSet, hs], ClockReading.tick_next⟩

end Sys2Proof.Machine
end

section
/-! PROOFS. The Duty Unit (04): SOON CLEAR and CANCEL CLEAR (R66, R67), and the jobs that end without a trip (R70, R71, R106). -/

namespace Sys2Proof.Machine

open Sys2Proof

/-! ## SOON CLEAR (R66) -/

/-- HELD exactly when the minutes lie outside 1 to 15. -/
theorem heldIf_minutes (n : Nat) : heldIf (decide (clamp 1 15 n ≠ n)) = if 1 ≤ n ∧ n ≤ 15 then Result.ok else Result.held := by
  have inRange : clamp 1 15 n ≠ n ↔ ¬(1 ≤ n ∧ n ≤ 15) := by
    unfold clamp
    omega
  simp only [heldIf, inRange, decide_eq_true_eq]
  exact ite_not ..

section
variable {n : Nat} {s : State} (on : s.duty.signedOn = true)
include on

/-- In HIRED the duty state becomes CLEARING. -/
theorem soonClear_of_hired (hd : s.duty.state = .hired) : soonClear n s = done (heldIf (decide (clamp 1 15 n ≠ n)))
    (dutyChanged .duty { s with duty := { s.duty with state := .clearing, soonClear := some (clamp 1 15 n) } }) := by
  simp [soonClear, takeSoonClear, on, hd]

/-- In CLEARING the minutes held already change nothing. -/
theorem soonClear_of_same (hd : s.duty.state = .clearing) (hm : s.duty.soonClear = some (clamp 1 15 n)) :
    soonClear n s = done (heldIf (decide (clamp 1 15 n ≠ n))) s := by simp [soonClear, takeSoonClear, on, hd, hm]

/-- In CLEARING other minutes replace those held. -/
theorem soonClear_of_other (hd : s.duty.state = .clearing) (hm : s.duty.soonClear ≠ some (clamp 1 15 n)) :
    soonClear n s = done (heldIf (decide (clamp 1 15 n ≠ n)))
      (refreshStatus .job (noticeTerminal noticeDuty { s with duty := { s.duty with soonClear := some (clamp 1 15 n) } })) := by
  simp [soonClear, takeSoonClear, on, hd, hm]

end

/-- Signed off, or in another duty state, SOON CLEAR is refused. -/
theorem soonClear_refused {n : Nat} {s : State} (h : s.duty.signedOn = false ∨ (s.duty.state ≠ .hired ∧ s.duty.state ≠ .clearing)) :
    soonClear n s = done .refusedState s := by
  rcases h with off | ⟨hired, clearing⟩
  · simp [soonClear, off]
  · simp [soonClear, hired, clearing]

/-! ## CANCEL CLEAR (R67) -/

/-! What follows a change of the Duty Unit leaves the change as it was made. -/

@[simp] theorem dutyChanged_duty_state (r : StatusReason) (s : State) : (dutyChanged r s).duty.state = s.duty.state := rfl

@[simp] theorem dutyChanged_duty_soonClear (r : StatusReason) (s : State) : (dutyChanged r s).duty.soonClear = s.duty.soonClear := rfl

@[simp] theorem dutyChanged_duty_next (r : StatusReason) (s : State) : (dutyChanged r s).duty.next = s.duty.next := rfl

/-- Settles O37, by the duty states in which the two commands find the part. -/
theorem soonClearAndCancelClear : Obligations.SoonClearAndCancelClear := by
  refine ⟨fun n m r s u takes hu hm hr => ?_, fun s u takes hu => ?_⟩
  · have minutes : m = clamp 1 15 n := hm
    have replies := exec_of_takes (owner := soonClear n) takes hu rfl
    rw [← heldIf_minutes] at hr
    subst minutes hr
    refine ⟨fun on hd => ?_, fun on hd same => ?_, fun on hd other => ?_, fun refused => ?_⟩
    · rw [replies, soonClear_of_hired on hd]
      rfl
    · rw [replies, soonClear_of_same on hd same]
      rfl
    · rw [replies, soonClear_of_other on hd other]
      rfl
    · rw [replies, soonClear_refused refused]
      rfl
  · have replies := exec_of_takes (owner := cancelClear) takes hu rfl
    refine ⟨fun hd => ⟨_, ?_, rfl, ?_⟩, fun hd => ?_⟩
    · rw [replies, cancelClear, if_pos hd]
      rfl
    · simp only [dutyChanged_duty_state, dutyChanged_duty_soonClear, dutyChanged_duty_next, and_self]
    · rw [replies, cancelClear, if_neg hd]
      rfl

/-! ## NO SHOW (R70) -/

/-- A general position is free while fewer than eight are occupied. -/
theorem Radio.generalFree_iff (r : Radio) : r.generalFree = true ↔ r.generalCount < 8 := decide_eq_true_iff

section
variable {s : State} {j : Job}

/-- In ASSIGNED, with a general position free, the JOB EVENT is queued and the current job ends. -/
theorem noShow_of_free (hd : s.duty.state = .assigned) (hj : s.duty.current = some j) (hf : s.radio.generalCount < 8) :
    noShow s = done .ok (endCurrentJob j { s with radio := s.radio.create (.jobEvent .noShow j.number s.tariff.clock) }) := by
  simp [noShow, hd, hj, (Radio.generalFree_iff _).mpr hf]

/-- With the eight general positions occupied the job stays current. -/
theorem noShow_of_full (hd : s.duty.state = .assigned) (hj : s.duty.current = some j) (hf : 8 ≤ s.radio.generalCount) :
    noShow s = done .queueFull s := by
  have full : ¬s.radio.generalFree = true := by
    rw [Radio.generalFree_iff]
    omega
  simp [noShow, hd, hj, full]

/-- Outside ASSIGNED there is no passenger to miss. -/
theorem noShow_refused (hd : s.duty.state ≠ .assigned) : noShow s = done .refusedState s := by
  unfold noShow
  split
  · exact absurd ‹_› hd
  · rfl

end

/-! ## The places that hold a number (R71) -/

@[simp] theorem slotHolds_none (n : Nat) : slotHolds n none = false := rfl

@[simp] theorem slotHolds_some (n : Nat) (j : Job) : slotHolds n (some j) = decide (j.number = n) := rfl

@[simp] theorem cancelledBlocks_none (n : Nat) : cancelledBlocks n none = [] := rfl

/-- A slot that holds the number gives back its job's blocks. -/
theorem cancelledBlocks_of_number {n : Nat} {j : Job} (h : j.number = n) : cancelledBlocks n (some j) = j.text.blocks := if_pos h

/-- A slot that does not hold the number gives back none. -/
theorem cancelledBlocks_of_not_held {n : Nat} {slot : Option Job} (h : slotHolds n slot = false) : cancelledBlocks n slot = [] := by
  cases slot with
  | none => rfl
  | some j => exact if_neg (of_decide_eq_false h)

/-- A trip in which a cancel marks something holds the number. -/
theorem tripHolds_of_tripToMark {n : Nat} {t : Option Trip} (h : tripToMark n t = true) : tripHolds n t = true := by
  unfold tripToMark at h
  unfold tripHolds
  cases hj : t.bind Trip.job with
  | none => simp [hj] at h
  | some x =>
    simp only [hj, Option.map_some, Option.getD_some, Bool.and_eq_true] at h ⊢
    exact h.1

section
variable {n : Nat} {s : State}

/-- A job that stands in the current-job slot alone is taken out of it, and ASSIGNED becomes VACANT. -/
theorem emptyPlaces_of_current {j : Job} (hc : s.duty.current = some j) (hj : j.number = n) (hn : s.duty.next = none) (ht : s.trip = none)
    (hd : s.duty.state = .assigned) : emptyPlaces n s = noticeTerminal noticeJob { s with
      pool := releaseBlocks j.text.blocks s.pool
      duty := { s.duty with current := none, state := .vacant } } := by
  simp [emptyPlaces, noticeTerminal, hc, hj, hn, ht, hd, cancelledBlocks_of_number]

/-- A job that stands in the next-job slot is taken out of it, and marked in the trip where it stands there too. -/
theorem emptyPlaces_of_next {j : Job} {t : Trip} (hn : s.duty.next = some j) (hj : j.number = n) (hc : s.duty.current = none)
    (ht : s.trip = some t) : emptyPlaces n s = noticeTerminal noticeJob { s with
      pool := releaseBlocks j.text.blocks s.pool
      duty := { s.duty with next := none }
      trip := some (t.cancelJob n) } := by
  simp [emptyPlaces, noticeTerminal, hc, hj, hn, ht, cancelledBlocks_of_number]

/-- A number that stands in no slot is marked in the trip. -/
theorem emptyPlaces_of_trip {t : Trip} (hc : slotHolds n s.duty.current = false) (hn : slotHolds n s.duty.next = false)
    (ht : s.trip = some t) : emptyPlaces n s = noticeTerminal noticeJob { s with trip := some (t.cancelJob n) } := by
  simp [emptyPlaces, noticeTerminal, hc, hn, ht, cancelledBlocks_of_not_held, releaseBlocks]

/-! ## JOB CANCEL and WITHDRAW (R71, R106) -/

/-- A number that stands in no slot, and in no trip still to be marked, changes nothing. -/
theorem cancelJob_of_no_place (hc : slotHolds n s.duty.current = false) (hn : slotHolds n s.duty.next = false)
    (ht : tripToMark n s.trip = false) : cancelJob n s = s := by simp [cancelJob, hc, hn, ht]

/-- A number found in no place is ignored. -/
theorem cancelJob_of_not_held (h : numberHeld n s = false) : cancelJob n s = s := by
  simp only [numberHeld, Bool.or_eq_false_iff] at h
  obtain ⟨⟨hc, hn⟩, ht⟩ := h
  refine cancelJob_of_no_place hc hn (Bool.eq_false_iff.mpr fun marks => ?_)
  simp [tripHolds_of_tripToMark marks] at ht

/-- A WITHDRAW that finds no open offer of its number is a JOB CANCEL. -/
theorem takeWithdraw_of_no_open (h : ∀ o ∈ findOffer n s, o.final = true) : takeWithdraw n s = cancelJob n s := by
  have cancels : withdrawJob n s = cancelJob n s := by
    unfold withdrawJob
    split
    · rfl
    · exact (cancelJob_of_not_held (Bool.eq_false_iff.mpr ‹_›)).symm
  unfold takeWithdraw
  split
  · rw [if_pos (h _ ‹_›), cancels]
  · exact cancels

/-- The offer found has the number sought. -/
theorem findOffer_number {o : Offer} (h : findOffer n s = some o) : o.number = n := by
  simpa using List.find?_some h

/-- A WITHDRAW ends the open offer of its number. -/
theorem takeWithdraw_of_open {o : Offer} (ho : findOffer n s = some o) (hf : o.final = false) :
    takeWithdraw n s = setOffer n .withdrawn (if o.accepted then removeAccept s else s) := by
  simp [takeWithdraw, ho, hf, endOffer, findOffer_number ho]

variable {cab : Nat} (h0 : n ≠ 0)
include h0

/-- A JOB CANCEL that is delivered with a number is taken. -/
theorem exec_jobCancel_of_delivered (h : Delivered (.jobCancel (.cab cab) n) s) :
    exec (.jobCancel (.cab cab) n) s = .next (sealDomain (cancelJob n s)) := receive_of_delivered h (by simp [toCab, h0])

/-- So is a WITHDRAW. -/
theorem exec_withdraw_of_delivered (h : Delivered (.withdraw (.cab cab) n) s) :
    exec (.withdraw (.cab cab) n) s = .next (sealDomain (takeWithdraw n s)) := receive_of_delivered h (by simp [toCab, h0])

/-- A JOB CANCEL, and a WITHDRAW that finds no open offer, cancel the number in every place. -/
theorem exec_cancels {c : Instr} (hc : c ∈ [Instr.jobCancel (.cab cab) n, .withdraw (.cab cab) n]) (h : Delivered c s)
    (closed : c = .withdraw (.cab cab) n → ∀ o ∈ findOffer n s, o.final = true) : exec c s = .next (sealDomain (cancelJob n s)) := by
  simp only [List.mem_cons, List.not_mem_nil, or_false] at hc
  rcases hc with rfl | rfl
  · exact exec_jobCancel_of_delivered h0 h
  · rw [exec_withdraw_of_delivered h0 h, takeWithdraw_of_no_open (closed rfl)]

end

/-- The cancelled mark of a trip's job, its number being the one cancelled. -/
theorem Trip.cancelJob_eq (n : Nat) (t : Trip) :
    t.cancelJob n = { t with job := t.job.map (fun x => if x.number = n then ⟨n, true⟩ else x) } := by
  have marks : (fun x : TripJob => if x.number = n then { x with cancelled := true } else x) =
      fun x => if x.number = n then ⟨n, true⟩ else x := by
    funext x
    split
    · rw [‹x.number = n›]
    · rfl
  rw [Trip.cancelJob, marks]

/-- Settles O38: NO SHOW by the duty state and the general positions, the two downlink commands by the places that hold the number. -/
theorem jobsEndWithoutATrip : Obligations.JobsEndWithoutATrip := by
  refine ⟨fun s u takes hu => ?_, fun n cab s h0 => ⟨fun c hc heard closed => ?_, fun o heard ho hf => ?_⟩⟩
  · have replies := exec_of_takes (owner := noShow) takes hu rfl
    refine ⟨fun j hd hj free => ?_, fun hd hj full => ?_, fun hd => ?_⟩
    · rw [replies, noShow_of_free hd hj free]
      rfl
    · obtain ⟨j, hj⟩ := Option.isSome_iff_exists.mp hj
      rw [replies, noShow_of_full hd hj full]
      rfl
    · rw [replies, noShow_refused hd]
      rfl
  · rw [exec_cancels h0 hc heard closed]
    refine ⟨fun j hj hn next trip hd => ?_, fun j t hj hn current trip => ?_, fun t trip job hc hn => ?_, fun t trip job hc hn => ?_,
      fun held => ?_⟩
    · have cancels : cancelJob n s = dutyChanged .duty (emptyPlaces n s) := by simp [cancelJob, hj, hn]
      rw [cancels, emptyPlaces_of_current hj hn next trip hd]
      rfl
    · have cancels : cancelJob n s = refreshStatus .job (emptyPlaces n s) := by simp [cancelJob, hj, hn, current]
      rw [cancels, emptyPlaces_of_next hj hn current trip, Trip.cancelJob_eq]
      rfl
    · have cancels : cancelJob n s = emptyPlaces n s := by simp [cancelJob, tripToMark, hc, hn, trip, job]
      rw [cancels, emptyPlaces_of_trip hc hn trip, Trip.cancelJob_eq, job, Option.map_some, if_pos rfl]
      rfl
    · rw [cancelJob_of_no_place hc hn (by simp [tripToMark, trip, job])]
    · rw [cancelJob_of_not_held held]
  · rw [exec_withdraw_of_delivered h0 heard, takeWithdraw_of_open ho hf]

end Sys2Proof.Machine
end

section
/-! PROOFS. The Offer Table (06): the answers of the terminal (R98, R99, R100, R107), the queueing of DECLINE and RELEASE (R99, R104), and the ends of
an open offer (R96, R101, R102, R105). -/

namespace Sys2Proof.Machine

open Sys2Proof

/-! ## The states of an offer (R87) and their timers (R96, R102) -/

/-- The deadline timer runs in OFFERED alone. -/
theorem Offer.deadlineDue_eq_some (o : Offer) (due : Nat) : o.deadlineDue = some due ↔ o.state = .offered due := by
  unfold Offer.deadlineDue
  cases o.state <;> simp

/-- An offer is accepted exactly while its award timer runs. -/
theorem Offer.accepted_eq (o : Offer) : o.accepted = o.awardDue.isSome := by
  unfold Offer.accepted Offer.awardDue
  cases o.state <;> rfl

/-- An offer is open exactly while one of its timers runs. -/
theorem Offer.final_eq_false (o : Offer) : o.final = false ↔ o.deadlineDue.isSome ∨ o.awardDue.isSome := by
  unfold Offer.final Offer.deadlineDue Offer.awardDue
  cases o.state <;> simp

/-- No two timers of an offer run at once. -/
theorem Offer.awardDue_of_deadlineDue {o : Offer} (h : o.deadlineDue.isSome) : o.awardDue = none := by
  obtain ⟨due, hd⟩ := Option.isSome_iff_exists.mp h
  simp [Offer.awardDue, (o.deadlineDue_eq_some due).mp hd]

/-! ## DECLINE (R99) -/

section
variable {n : Nat} {s : State} {o : Offer}

/-- There is no offer of the number to decline. -/
theorem decline_of_not_found (ho : findOffer n s = none) : decline n s = done .notFound s := by simp [decline, ho]

/-- After the deadline it is too late to decline. -/
theorem decline_of_expired (ho : findOffer n s = some o) (he : o.state = .expired) : decline n s = done .tooLate s := by
  simp [decline, ho, he]

/-- An offer in OFFERED is declined, and its DECLINE is queued. -/
theorem decline_of_open (ho : findOffer n s = some o) (hd : o.deadlineDue.isSome) :
    decline n s = done .ok (declineOffer n .driver (setOffer n (.declined .driver) s)) := by
  obtain ⟨due, hd⟩ := Option.isSome_iff_exists.mp hd
  simp [decline, ho, (o.deadlineDue_eq_some due).mp hd]

/-- In a state other than OFFERED and EXPIRED a DECLINE is refused. -/
theorem decline_refused (ho : findOffer n s = some o) (he : o.state ≠ .expired) (hd : o.deadlineDue = none) :
    decline n s = done .refusedState s := by
  simp only [decline, ho]
  split
  · exact absurd ‹_› he
  · rename_i due hs
    simp [(o.deadlineDue_eq_some due).mpr hs] at hd
  · rfl

/-! ## DISMISS (R100) -/

/-- There is no offer of the number to dismiss. -/
theorem dismiss_of_not_found (ho : findOffer n s = none) : dismiss n s = done .notFound s := by simp [dismiss, ho]

/-- An offer still open is not dismissed. -/
theorem dismiss_of_open (ho : findOffer n s = some o) (hf : o.final = false) : dismiss n s = done .refusedState s := by
  simp [dismiss, ho, hf]

/-- An offer in a final state leaves the table, and its blocks go back to the pool. -/
theorem dismiss_of_final (ho : findOffer n s = some o) (hf : o.final = true) :
    dismiss n s = done .ok (dropOffer n { s with pool := releaseBlocks o.text.blocks s.pool }) := by
  simp [dismiss, ho, hf, removeOffer, findOffer_number ho]

end

/-! ## SET OFFER MODE (R98) -/

/-- The two modes are taken. -/
theorem setOfferMode_of_le {v : Nat} {s : State} (hv : v ≤ 1) :
    setOfferMode v s = done .ok { s with offers := { s.offers with mode := if v = 0 then .single else .multi } } := by
  match v, hv with
  | 0, _ => rfl
  | 1, _ => rfl

/-- Any other value is refused. -/
theorem setOfferMode_of_gt {v : Nat} {s : State} (hv : 2 ≤ v) : setOfferMode v s = done .badValue s := by
  match v, hv with
  | _ + 2, _ => rfl

/-! ## SET ZONES (R107) -/

/-- The zones held are those given. -/
theorem mem_onceEach (z : Nat) (zs : List Nat) : z ∈ onceEach zs ↔ z ∈ zs := by
  induction zs with
  | nil => simp [onceEach]
  | cons y ys ih =>
    simp only [onceEach, List.mem_cons, List.mem_filter, ih, decide_eq_true_eq]
    tauto

/-- Each zone is held once. -/
theorem onceEach_nodup (zs : List Nat) : (onceEach zs).Nodup := by
  induction zs with
  | nil => exact List.nodup_nil
  | cons y ys ih => exact List.nodup_cons.mpr ⟨by simp, ih.filter _⟩

/-- At most six zones from 1 to 999 are taken. -/
theorem setZones_of_inRange {zs : List Nat} {s : State} (hl : zs.length ≤ 6) (hz : ∀ z ∈ zs, 1 ≤ z ∧ z ≤ 999) :
    setZones zs s = done .ok { s with offers := { s.offers with zones := onceEach zs } } :=
  if_pos ⟨hl, by simpa [within] using hz⟩

/-- Seven zones or more, or a zone out of range, are refused. -/
theorem setZones_of_not_inRange {zs : List Nat} {s : State} (h : 6 < zs.length ∨ ∃ z ∈ zs, z = 0 ∨ 999 < z) :
    setZones zs s = done .badValue s := by
  refine if_neg fun ⟨hl, hz⟩ => ?_
  rcases h with long | ⟨z, hm, out⟩
  · omega
  · have inRange : 1 ≤ z ∧ z ≤ 999 := by simpa [within] using List.all_eq_true.mp hz z hm
    omega

/-! ## The queueing of a DECLINE and of a RELEASE (R99, R104, R154) -/

/-- A creation needs one of the eight general positions. -/
theorem Radio.createGeneral_eq (c : Content) (r : Radio) : r.createGeneral c = if r.generalCount < 8 then r.create c else r := by
  simp only [Radio.createGeneral, Radio.generalFree_iff]

/-- A DECLINE for the number is held. -/
theorem Radio.hasDecline_iff (n : Nat) (r : Radio) : r.hasDecline n = true ↔ ∃ e ∈ r.queue, ∃ x, e.content = .decline n x := by
  rw [Radio.hasDecline, List.any_eq_true]
  refine exists_congr fun e => and_congr_right fun _ => ?_
  cases e.content <;> simp

/-- A RELEASE for the number is held. -/
theorem Radio.hasRelease_iff (n : Nat) (r : Radio) : r.hasRelease n = true ↔ ∃ e ∈ r.queue, ∃ x, e.content = .jobEvent .release n x := by
  rw [Radio.hasRelease, List.any_eq_true]
  refine exists_congr fun e => and_congr_right fun _ => ?_
  cases e.content with
  | jobEvent kind m time => cases kind <;> simp
  | _ => simp

section
variable {n : Nat} {r : Radio}

/-- One DECLINE for a number is enough. -/
theorem Radio.queueDecline_of_held {reason : DeclineReason} (h : ∃ e ∈ r.queue, ∃ x, e.content = .decline n x) :
    r.queueDecline n reason = r := if_pos ((r.hasDecline_iff n).mpr h)

/-- Without one, a DECLINE is created in a general position. -/
theorem Radio.queueDecline_of_not_held {reason : DeclineReason} (h : ∀ e ∈ r.queue, ∀ x, e.content ≠ .decline n x) :
    r.queueDecline n reason = if r.generalCount < 8 then r.create (.decline n reason) else r := by
  have absent : ¬r.hasDecline n = true := by simpa [Radio.hasDecline_iff] using h
  rw [Radio.queueDecline, if_neg absent, Radio.createGeneral_eq]

/-- One RELEASE for a number is enough. -/
theorem Radio.queueRelease_of_held {t : ClockReading} (h : ∃ e ∈ r.queue, ∃ x, e.content = .jobEvent .release n x) :
    r.queueRelease n t = r := if_pos ((r.hasRelease_iff n).mpr h)

/-- Without one, a RELEASE is created in a general position. -/
theorem Radio.queueRelease_of_not_held {t : ClockReading} (h : ∀ e ∈ r.queue, ∀ x, e.content ≠ .jobEvent .release n x) :
    r.queueRelease n t = if r.generalCount < 8 then r.create (.jobEvent .release n t) else r := by
  have absent : ¬r.hasRelease n = true := by simpa [Radio.hasRelease_iff] using h
  rw [Radio.queueRelease, if_neg absent, Radio.createGeneral_eq]

end

/-- Settles O43: each command by its outcomes, and the two entries by what the queue holds already. -/
theorem offersAreAnsweredAndDismissed : Obligations.OffersAreAnsweredAndDismissed := by
  refine ⟨fun n s u takes hu => ?_, fun n s u takes hu => ?_, fun v s u takes hu => ?_, fun zs s u takes hu => ?_,
    fun n general reason t r made hg hm => ?_⟩
  · have replies := exec_of_takes (owner := decline n) takes hu rfl
    refine ⟨fun absent => ?_, fun o ho => ⟨fun expired => ?_, fun other closed => ?_, fun offered => ?_⟩⟩
    · rw [replies, decline_of_not_found absent]
      rfl
    · rw [replies, decline_of_expired ho expired]
      rfl
    · rw [replies, decline_refused ho other closed]
      rfl
    · rw [replies, decline_of_open ho offered]
      rfl
  · have replies := exec_of_takes (owner := dismiss n) takes hu rfl
    refine ⟨fun absent => ?_, fun o ho => ⟨fun unsettled => ?_, fun final => ?_⟩⟩
    · rw [replies, dismiss_of_not_found absent]
      rfl
    · rw [replies, dismiss_of_open ho unsettled]
      rfl
    · rw [replies, dismiss_of_final ho final]
      rfl
  · have replies := exec_of_takes (owner := setOfferMode v) takes hu rfl
    refine ⟨fun hv => ?_, fun hv => ?_⟩
    · rw [replies, setOfferMode_of_le hv]
      rfl
    · rw [replies, setOfferMode_of_gt hv]
      rfl
  · have replies := exec_of_takes (owner := setZones zs) takes hu rfl
    refine ⟨fun out => ?_, fun hl hz => ⟨onceEach zs, ?_, onceEach_nodup zs, fun z => mem_onceEach z zs⟩⟩
    · rw [replies, setZones_of_not_inRange out]
      rfl
    · rw [replies, setZones_of_inRange hl hz]
      rfl
  · rw [← Radio.generalCount_eq] at hg
    subst hg hm
    exact ⟨Radio.queueDecline_of_held, Radio.queueDecline_of_not_held, Radio.queueRelease_of_held, Radio.queueRelease_of_not_held⟩

/-! ## The ends of an open offer (R96, R101, R102, R105) -/

section
variable {n : Nat} {s : State} {o : Offer} {due : Nat}

/-- The deadline of an offer in OFFERED. -/
theorem takeDeadline_of_offered (ho : findOffer n s = some o) (hs : o.state = .offered due) :
    takeDeadline n s = setOffer n .expired (reach due s) := by simp [takeDeadline, ho, hs]

/-- An offer that has left OFFERED does not expire. -/
theorem takeDeadline_of_stopped (h : ∀ o ∈ findOffer n s, o.deadlineDue = none) : takeDeadline n s = s := by
  unfold takeDeadline
  split
  · rename_i o ho
    split
    · rename_i due hs
      exact absurd (h o ho) (by simp [(o.deadlineDue_eq_some due).mpr hs])
    · rfl
  · rfl

/-- The award timer of an accepted offer. -/
theorem takeAwardExpiry_of_running (ho : findOffer n s = some o) (hd : o.awardDue = some due) :
    takeAwardExpiry n s = setOffer n .lost (removeAccept (reach due s)) := by simp [takeAwardExpiry, ho, hd]

/-- Without an accepted offer of the number no award timer runs. -/
theorem takeAwardExpiry_of_stopped (h : ∀ o ∈ findOffer n s, o.awardDue = none) : takeAwardExpiry n s = s := by
  have stopped : (findOffer n s).bind Offer.awardDue = none := Option.bind_eq_none_iff.mpr h
  simp [takeAwardExpiry, stopped]

/-- A LOST ends the open offer of its number, and the ACCEPT entry with it where the offer is the accepted one. -/
theorem takeLost_of_open (ho : findOffer n s = some o) (hf : o.final = false) :
    takeLost n s = setOffer n .lost (if o.accepted then removeAccept s else s) := by
  simp [takeLost, ho, hf, endOffer, findOffer_number ho]

/-- A LOST that finds no open offer of its number changes nothing. -/
theorem takeLost_of_no_open (h : ∀ o ∈ findOffer n s, o.final = true) : takeLost n s = s := by
  unfold takeLost
  split
  · exact if_pos (h _ ‹_›)
  · rfl

/-- A LOST that is delivered with a number is taken. -/
theorem exec_lost_of_delivered {cab : Nat} (h0 : n ≠ 0) (h : Delivered (.lost (.cab cab) n) s) :
    exec (.lost (.cab cab) n) s = .next (sealDomain (takeLost n s)) := receive_of_delivered h (by simp [toCab, h0])

end

/-- Settles O44, by the timer that runs in the state of the offer found. -/
theorem openOffersComeToAnEnd : Obligations.OpenOffersComeToAnEnd := by
  refine ⟨fun n s up => ?_, fun n cab s heard h0 => ?_⟩
  · have expires : exec (.deadlineExpiry n) s = .next (sealDomain (takeDeadline n s)) := whenUp_up up
    have awardEnds : exec (.awardTimerExpiry n) s = .next (sealDomain (takeAwardExpiry n s)) := whenUp_up up
    refine ⟨fun o due ho hs => ?_, fun stopped => ?_, fun o due ho hd => ?_, fun stopped => ?_⟩
    · rw [expires, takeDeadline_of_offered ho hs, reach]
    · rw [expires, takeDeadline_of_stopped stopped]
    · rw [awardEnds, takeAwardExpiry_of_running ho hd, reach]
    · rw [awardEnds, takeAwardExpiry_of_stopped stopped]
  · rw [exec_lost_of_delivered h0 heard]
    refine ⟨fun o ho offered => ?_, fun o ho accepted => ?_, fun closed => ?_⟩
    · rw [takeLost_of_open ho (o.final_eq_false.mpr (.inl offered)), Offer.accepted_eq, Offer.awardDue_of_deadlineDue offered]
      rfl
    · rw [takeLost_of_open ho (o.final_eq_false.mpr (.inr accepted)), Offer.accepted_eq, if_pos accepted]
    · rw [takeLost_of_no_open closed]

end Sys2Proof.Machine
end

section
/-! PROOFS. The emergency (08): BEACON HOLD (R136). -/

namespace Sys2Proof.Machine

open Sys2Proof

/-! ## BEACON HOLD (R136) -/

/-- An emergency is ALERTING or SEEN: any alarm state but NORMAL. -/
theorem inEmergency_eq_true (s : State) : inEmergency s = true ↔ s.alarm.record.state ≠ .normal := decide_eq_true_iff

section
variable {n : Nat} {s : State}

/-- In an emergency the hold count takes the value, at most 15. -/
theorem takeBeaconHold_of_emergency (h : s.alarm.record.state ≠ .normal) :
    takeBeaconHold n s = { s with alarm := { s.alarm with record := { s.alarm.record with hold := min n 15 } } } :=
  if_pos ((inEmergency_eq_true s).mpr h)

/-- In NORMAL a BEACON HOLD is ignored. -/
theorem takeBeaconHold_of_normal (h : s.alarm.record.state = .normal) : takeBeaconHold n s = s :=
  if_neg fun emergency => (inEmergency_eq_true s).mp emergency h

variable {a : Address}

/-- A BEACON HOLD that is delivered to this cab is taken (R145). -/
theorem exec_beaconHold_of_delivered (h : Delivered (.beaconHold a n) s) (mine : toCab a = true) :
    exec (.beaconHold a n) s = .next (sealDomain (takeBeaconHold n s)) := receive_of_delivered h mine

/-- One addressed to all cabs or a zone is not (R145). -/
theorem exec_beaconHold_of_not_toCab (h : Delivered (.beaconHold a n) s) (shared : toCab a = false) :
    exec (.beaconHold a n) s = .next (sealDomain s) := receive_of_not_taken h shared

end

/-- Settles O52, by the address of the frame and the alarm state that finds it. -/
theorem beaconHoldSetsTheHoldCount : Obligations.BeaconHoldSetsTheHoldCount := by
  intro a n s heard
  refine ⟨fun mine emergency => ?_, fun mine normal => ?_, exec_beaconHold_of_not_toCab heard⟩
  · rw [exec_beaconHold_of_delivered heard mine, takeBeaconHold_of_emergency emergency]
  · rw [exec_beaconHold_of_delivered heard mine, takeBeaconHold_of_normal normal]

end Sys2Proof.Machine
end

section
/-! PROOFS. The laws (00 section 5.6): what it takes for a law that depends on a few parts of the state to be kept by every step. -/

namespace Sys2Proof.Machine

open Sys2Proof

/-! ## The owners that touch a law -/

/-- None of the parts D is among the parts F. -/
abbrev Avoids (D F : List Field) : Prop := ∀ f ∈ D, f ∉ F

/-- A law that depends on the parts D is kept where a change avoids them; otherwise it has to be shown. -/
theorem DependsOn.keepOr {D F : List Field} {P : State → Prop} {Q : Prop} {s t : State} (d : DependsOn D P) (frame : changesOnly F s t)
    (b : Avoids D F ∨ Q) (law : P s) (kept : Q → P t) : P t :=
  b.elim (fun avoids => d.keep frame avoids law) kept

/-- The tick of the clock (R32) touches the Tariff Store alone. -/
theorem clockTick_frame (s : State) : changesOnly [.tariff] s { s with tariff := { s.tariff with clock := s.tariff.clock.tick } } := by
  intro f hf
  cases f <;> simp_all [Field.same]

/-- What a law that depends on the parts D asks for: of the owners whose parts (their frames) meet D, that they keep it, and of a loss and of the starts,
whose abandoned form ends in the part going down again (R179), that they do. -/
structure KeptBeyond (D : List Field) (P : State → Prop) : Prop where
  own : Avoids D [.pending, .now, .handed, .meter, .terminal] := by decide
  sign : Avoids D [.radio, .duty, .offers, .terminal] ∨ ∀ s, P s → P (terminalSign s) := by exact .inl (by decide)
  tick : Avoids D [.tariff] ∨ ∀ s, P s → P { s with tariff := { s.tariff with clock := s.tariff.clock.tick } } := by exact .inl (by decide)
  pulse : Avoids D [.totals, .dist] ∨ ∀ s, P s → s.settings.k ≠ 0 → P (takePulse s) := by exact .inl (by decide)
  evaluation : Avoids D [.now, .evalDue, .tariff, .trip, .dist, .faults, .meter, .terminal] ∨ (∀ s, P s → s.power = .up → P (takeEvaluation
    s))
    := by exact .inl (by decide)
  flagDown : Avoids D [.trip, .evalDue, .dist, .terminal, .tariff, .faults, .meter, .pool, .duty, .offers, .radio] ∨ (∀ m n s, P s → P
    (flagDown m n s).1)
    := by exact .inl (by decide)
  stop : Avoids D [.trip, .dist, .faults, .meter, .terminal, .evalDue, .resumeDue] ∨ (∀ s, P s → P (Machine.stop s).1)
    := by exact .inl (by decide)
  resume : Avoids D [.trip, .resumeDue, .evalDue, .terminal] ∨ ∀ s, P s → P (Machine.resume s).1 := by exact .inl (by decide)
  clear : Avoids D [.resumeDue, .closed, .alarm, .totals, .radio, .tariff, .meter, .trip, .evalDue, .dist, .terminal, .pool, .duty,
    .offers] ∨ (∀ s, P s → P (Machine.clear s).1)
    := by exact .inl (by decide)
  addExtra : Avoids D [.trip, .terminal] ∨ ∀ n s, P s → P (Machine.addExtra n s).1 := by exact .inl (by decide)
  loadTariffPart : Avoids D [.tariff] ∨ ∀ p c s, P s → P (Machine.loadTariffPart p c s).1 := by exact .inl (by decide)
  commitTariff : Avoids D [.tariff, .meter] ∨ ∀ n s, P s → P (Machine.commitTariff n s).1 := by exact .inl (by decide)
  setClock : Avoids D [.tariff] ∨ ∀ a b c d s, P s → P (Machine.setClock a b c d s).1 := by exact .inl (by decide)
  calibrate : Avoids D [.settings, .dist] ∨ ∀ n s, P s → P (Machine.calibrate n s).1 := by exact .inl (by decide)
  setIdentity : Avoids D [.settings] ∨ ∀ m n s, P s → P (Machine.setIdentity m n s).1 := by exact .inl (by decide)
  setAirRate : Avoids D [.settings] ∨ ∀ n s, P s → P (Machine.setAirRate n s).1 := by exact .inl (by decide)
  setKeyLead : Avoids D [.settings] ∨ ∀ n s, P s → P (Machine.setKeyLead n s).1 := by exact .inl (by decide)
  setStatusInterval : Avoids D [.settings] ∨ ∀ n s, P s → P (Machine.setStatusInterval n s).1 := by exact .inl (by decide)
  setAlarmVisible : Avoids D [.settings] ∨ ∀ n s, P s → P (Machine.setAlarmVisible n s).1 := by exact .inl (by decide)
  setUrgentSet : Avoids D [.settings] ∨ ∀ a b c s, P s → P (Machine.setUrgentSet a b c s).1 := by exact .inl (by decide)
  setSustainedSet : Avoids D [.settings] ∨ ∀ a b c s, P s → P (Machine.setSustainedSet a b c s).1 := by exact .inl (by decide)
  setSensitivity : Avoids D [.settings, .alarm] ∨ ∀ l n s, P s → P (Machine.setSensitivity l n s).1 := by exact .inl (by decide)
  clearFaults : Avoids D [.faults] ∨ ∀ s, P s → P (Machine.clearFaults s).1 := by exact .inl (by decide)
  signOn : Avoids D [.radio, .duty, .offers, .terminal] ∨ ∀ s, P s → P (Machine.signOn s).1 := by exact .inl (by decide)
  signOff : Avoids D [.radio, .duty, .offers, .terminal] ∨ ∀ s, P s → P (Machine.signOff s).1 := by exact .inl (by decide)
  soonClear : Avoids D [.radio, .duty, .offers, .terminal] ∨ ∀ n s, P s → P (Machine.soonClear n s).1 := by exact .inl (by decide)
  cancelClear : Avoids D [.radio, .duty, .offers, .terminal] ∨ ∀ s, P s → P (Machine.cancelClear s).1 := by exact .inl (by decide)
  noShow : Avoids D [.radio, .duty, .offers, .terminal, .pool] ∨ ∀ s, P s → P (Machine.noShow s).1 := by exact .inl (by decide)
  setZones : Avoids D [.offers] ∨ ∀ n s, P s → P (Machine.setZones n s).1 := by exact .inl (by decide)
  setOfferMode : Avoids D [.offers] ∨ ∀ n s, P s → P (Machine.setOfferMode n s).1 := by exact .inl (by decide)
  accept : Avoids D [.offers, .radio, .terminal] ∨ ∀ n s, P s → P (Machine.accept n s).1 := by exact .inl (by decide)
  decline : Avoids D [.offers, .radio, .terminal] ∨ ∀ n s, P s → P (Machine.decline n s).1 := by exact .inl (by decide)
  dismiss : Avoids D [.pool, .offers] ∨ ∀ n s, P s → P (Machine.dismiss n s).1 := by exact .inl (by decide)
  markRead : Avoids D [.messages, .radio] ∨ ∀ n s, P s → P (Machine.markRead n s).1 := by exact .inl (by decide)
  delete : Avoids D [.pool, .messages] ∨ ∀ n s, P s → P (Machine.delete n s).1 := by exact .inl (by decide)
  reply : Avoids D [.pool, .messages, .radio] ∨ ∀ n c t s, P s → P (Machine.reply n c t s).1 := by exact .inl (by decide)
  sendMessage : Avoids D [.pool, .messages, .radio] ∨ ∀ c t s, P s → P (Machine.sendMessage none c t s).1 := by exact .inl (by decide)
  dismissOutbound : Avoids D [.messages] ∨ ∀ n s, P s → P (Machine.dismissOutbound n s).1 := by exact .inl (by decide)
  setPosition : Avoids D [.radio] ∨ ∀ a b s, P s → P (Machine.setPosition a b s).1 := by exact .inl (by decide)
  setPriority : Avoids D [.alarm, .radio] ∨ ∀ a b s, P s → P (Machine.setPriority a b s).1 := by exact .inl (by decide)
  alarmCancel : Avoids D [.alarm, .radio, .closed, .meter, .terminal] ∨ (∀ s, P s → s.power = .up → P (Machine.alarmCancel s).1)
    := by exact .inl (by decide)
  head : Avoids D [.draws, .offers, .terminal, .duty, .closed, .totals, .radio, .pool, .messages] ∨ (∀ h s, P s → headValid .all h = true →
    keyAsserted s = false → P (takeHead h s))
    := by exact .inl (by decide)
  backoffEnd : Avoids D [.radio] ∨ ∀ n s, P s → P (takeBackoffEnd n s) := by exact .inl (by decide)
  retryLimit : Avoids D [.duty, .terminal, .radio, .pool, .messages] ∨ ∀ n s, P s → P (takeRetryLimit n s) := by exact .inl (by decide)
  linkLost : Avoids D [.now, .radio, .terminal] ∨ ∀ s, P s → P (takeLinkLost s) := by exact .inl (by decide)
  contention : Avoids D [.now, .radio] ∨ ∀ s, P s → P (takeContention s) := by exact .inl (by decide)
  reserved : Avoids D [.now, .radio] ∨ ∀ n s, P s → P (takeReserved n s) := by exact .inl (by decide)
  txEnd : Avoids D [.now, .radio, .closed] ∨ ∀ s, P s → P (takeTransmissionEnd s) := by exact .inl (by decide)
  blindEnd : Avoids D [.now, .radio] ∨ ∀ s, P s → P (takeBlindEnd s) := by exact .inl (by decide)
  offer : Avoids D [.pool, .offers, .terminal, .radio] ∨ (∀ a o s, P s → offerWellNumbered o = true → P (takeOffer a o s))
    := by exact .inl (by decide)
  award : Avoids D [.pool, .duty, .terminal, .offers, .radio] ∨ ∀ n s, P s → P (takeAward n s) := by exact .inl (by decide)
  lost : Avoids D [.offers, .radio, .terminal] ∨ ∀ n s, P s → P (takeLost n s) := by exact .inl (by decide)
  withdraw : Avoids D [.pool, .duty, .trip, .terminal, .radio, .offers] ∨ ∀ n s, P s → P (takeWithdraw n s) := by exact .inl (by decide)
  jobCancel : Avoids D [.pool, .duty, .trip, .terminal, .radio, .offers] ∨ ∀ n s, P s → P (cancelJob n s) := by exact .inl (by decide)
  poll : Avoids D [.radio, .duty] ∨ ∀ s, P s → P (refreshStatus .poll s) := by exact .inl (by decide)
  message : Avoids D [.pool, .messages, .terminal, .radio] ∨ (∀ a n c t s, n ≠ 0 → P s → P (takeMessage a n c t s))
    := by exact .inl (by decide)
  alertSeen : Avoids D [.alarm, .meter, .terminal] ∨ ∀ s, P s → s.power = .up → P (takeAlertSeen s) := by exact .inl (by decide)
  standDown : Avoids D [.alarm, .radio, .closed, .meter, .terminal] ∨ (∀ s, P s → s.power = .up → P (takeStandDown s))
    := by exact .inl (by decide)
  beaconHold : Avoids D [.alarm] ∨ ∀ n s, P s → P (takeBeaconHold n s) := by exact .inl (by decide)
  levels : Avoids D [.alarm, .radio, .trip, .offers, .terminal, .meter] ∨ (∀ a b s, P s → s.power = .up → P (takeLevels a b s))
    := by exact .inl (by decide)
  armed : Avoids D [.alarm] ∨ ∀ a b s, P s → P (takeArmed a b s) := by exact .inl (by decide)
  stuck : Avoids D [.alarm, .faults, .meter] ∨ ∀ a s, P s → P (takeStuck a s) := by exact .inl (by decide)
  cancelExpiry : Avoids D [.now, .alarm] ∨ ∀ s, P s → s.power = .up → P (takeCancelExpiry s) := by exact .inl (by decide)
  cycleStart : Avoids D [.now, .alarm] ∨ ∀ s, P s → P (takeCycleStart s) := by exact .inl (by decide)
  burst : Avoids D [.now, .alarm, .radio] ∨ ∀ s, P s → P (takeBurst s) := by exact .inl (by decide)
  resumeExpiry : Avoids D [.now, .resumeDue] ∨ ∀ s, P s → P (takeResumeExpiry s) := by exact .inl (by decide)
  statusInterval : Avoids D [.now, .radio, .duty] ∨ ∀ s, P s → P (takeStatusInterval s) := by exact .inl (by decide)
  presenceExpiry : Avoids D [.now, .radio, .duty, .offers, .terminal] ∨ ∀ s, P s → P (takePresenceExpiry s) := by exact .inl (by decide)
  deadline : Avoids D [.now, .offers, .terminal] ∨ ∀ n s, P s → P (takeDeadline n s) := by exact .inl (by decide)
  awardExpiry : Avoids D [.now, .offers, .radio, .terminal] ∨ ∀ n s, P s → P (takeAwardExpiry n s) := by exact .inl (by decide)
  damage : Avoids D [.tariff] ∨ (∀ s, P s → P (damageActive s)) ∧ ∀ s, P s → P (damagePending s) := by exact .inl (by decide)
  down : ∀ s, P s → P (goDown s)
  abandoned : ∀ reach s, P s → P (goDown (warmSteps reach s))
  cold : ∀ s, P (coldStart s)
  warm : ∀ s, P s → P (warmStart s)

theorem damageActive_frame (s : State) : changesOnly [.tariff] s (damageActive s) := by
  intro f hf
  cases f <;> simp_all [Field.same, damageActive]

theorem damagePending_frame (s : State) : changesOnly [.tariff] s (damagePending s) := by
  intro f hf
  cases f <;> simp_all [Field.same, damagePending]

/-- The stored check value is none of the parts of the state. -/
theorem domainCheck_frame (s : State) (v : Check) : changesOnly [] s { s with domainCheck := v } := by
  intro f _
  cases f <;> rfl

/-- A loss of supply keeps a law, whatever becomes of the Retained Domain (R178, R179). -/
theorem KeptBeyond.losePower {D : List Field} {P : State → Prop} (dep : DependsOn D P) (B : KeptBeyond D P) (fate : DomainFate) (s : State)
    (law : P s) : P (losePower fate s) := by
  have check : ∀ v x, P x → P { x with domainCheck := v } := fun v x => dep.keep (domainCheck_frame x v) (by simp)
  have active : ∀ x, P x → P (damageActive x) := fun x lx => dep.keepOr (damageActive_frame x) B.damage lx (fun kept => kept.1 x lx)
  have pending : ∀ x, P x → P (damagePending x) := fun x lx => dep.keepOr (damagePending_frame x) B.damage lx (fun kept => kept.2 x lx)
  have down := B.down s law
  cases fate with
  | kept => exact down
  | lost => exact check _ _ down
  | activeDamaged => exact check _ _ (active _ down)
  | pendingDamaged => exact check _ _ (pending _ down)
  | bothDamaged => exact check _ _ (active _ (pending _ down))
  | leftByStart reach =>
    change P (goDown (if domainAgrees (goDown s) then sealDomain (warmSteps reach (goDown s)) else coldStart (goDown s)))
    split
    · exact check _ _ (B.abandoned reach _ down)
    · exact B.down _ (B.cold _)

/-- So every owner keeps the law. -/
theorem KeptBeyond.keptByOwners {D : List Field} {P : State → Prop} (dep : DependsOn D P) (B : KeptBeyond D P) : KeptByOwners P where
  check s := dep.keep (sealDomain_frame s) (by simp)
  set p v s := dep.keep (setPort_frame p v s) (fun f hf bad => B.own f hf (by revert bad; cases f <;> decide))
  hand s l := dep.keep (F := [.handed]) (by intro f hf; cases f <;> simp_all [Field.same])
    (fun f hf bad => B.own f hf (by revert bad; cases f <;> decide))
  now s n := dep.keep (F := [.now]) (by intro f hf; cases f <;> simp_all [Field.same])
    (fun f hf bad => B.own f hf (by revert bad; cases f <;> decide))
  pend s l := dep.keep (F := [.pending]) (by intro f hf; cases f <;> simp_all [Field.same])
    (fun f hf bad => B.own f hf (by revert bad; cases f <;> decide))
  sign s law := dep.keepOr (terminalSign_frame s) B.sign law (fun kept => kept s law)
  tick s law := dep.keepOr (clockTick_frame s) B.tick law (fun kept => kept s law)
  pulse s law c1 := dep.keepOr (takePulse_frame s) B.pulse law (fun kept => kept s law c1)
  evaluation s law c1 := dep.keepOr (takeEvaluation_frame s) B.evaluation law (fun kept => kept s law c1)
  flagDown m n s law := dep.keepOr (flagDown_frame m n s) B.flagDown law (fun kept => kept m n s law)
  stop s law := dep.keepOr (stop_frame s) B.stop law (fun kept => kept s law)
  resume s law := dep.keepOr (resume_frame s) B.resume law (fun kept => kept s law)
  clear s law := dep.keepOr (clear_frame s) B.clear law (fun kept => kept s law)
  addExtra n s law := dep.keepOr (addExtra_frame n s) B.addExtra law (fun kept => kept n s law)
  loadTariffPart p c s law := dep.keepOr (loadTariffPart_frame p c s) B.loadTariffPart law (fun kept => kept p c s law)
  commitTariff n s law := dep.keepOr (commitTariff_frame n s) B.commitTariff law (fun kept => kept n s law)
  setClock a b c d s law := dep.keepOr (setClock_frame a b c d s) B.setClock law (fun kept => kept a b c d s law)
  calibrate n s law := dep.keepOr (calibrate_frame n s) B.calibrate law (fun kept => kept n s law)
  setIdentity m n s law := dep.keepOr (setIdentity_frame m n s) B.setIdentity law (fun kept => kept m n s law)
  setAirRate n s law := dep.keepOr (setAirRate_frame n s) B.setAirRate law (fun kept => kept n s law)
  setKeyLead n s law := dep.keepOr (setKeyLead_frame n s) B.setKeyLead law (fun kept => kept n s law)
  setStatusInterval n s law := dep.keepOr (setStatusInterval_frame n s) B.setStatusInterval law (fun kept => kept n s law)
  setAlarmVisible n s law := dep.keepOr (setAlarmVisible_frame n s) B.setAlarmVisible law (fun kept => kept n s law)
  setUrgentSet a b c s law := dep.keepOr (setUrgentSet_frame a b c s) B.setUrgentSet law (fun kept => kept a b c s law)
  setSustainedSet a b c s law := dep.keepOr (setSustainedSet_frame a b c s) B.setSustainedSet law (fun kept => kept a b c s law)
  setSensitivity l n s law := dep.keepOr (setSensitivity_frame l n s) B.setSensitivity law (fun kept => kept l n s law)
  clearFaults s law := dep.keepOr (clearFaults_frame s) B.clearFaults law (fun kept => kept s law)
  signOn s law := dep.keepOr (signOn_frame s) B.signOn law (fun kept => kept s law)
  signOff s law := dep.keepOr (signOff_frame s) B.signOff law (fun kept => kept s law)
  soonClear n s law := dep.keepOr (soonClear_frame n s) B.soonClear law (fun kept => kept n s law)
  cancelClear s law := dep.keepOr (cancelClear_frame s) B.cancelClear law (fun kept => kept s law)
  noShow s law := dep.keepOr (noShow_frame s) B.noShow law (fun kept => kept s law)
  setZones n s law := dep.keepOr (setZones_frame n s) B.setZones law (fun kept => kept n s law)
  setOfferMode n s law := dep.keepOr (setOfferMode_frame n s) B.setOfferMode law (fun kept => kept n s law)
  accept n s law := dep.keepOr (accept_frame n s) B.accept law (fun kept => kept n s law)
  decline n s law := dep.keepOr (decline_frame n s) B.decline law (fun kept => kept n s law)
  dismiss n s law := dep.keepOr (dismiss_frame n s) B.dismiss law (fun kept => kept n s law)
  markRead n s law := dep.keepOr (markRead_frame n s) B.markRead law (fun kept => kept n s law)
  delete n s law := dep.keepOr (delete_frame n s) B.delete law (fun kept => kept n s law)
  reply n c t s law := dep.keepOr (reply_frame n c t s) B.reply law (fun kept => kept n c t s law)
  sendMessage c t s law := dep.keepOr (sendMessage_frame none c t s) B.sendMessage law (fun kept => kept c t s law)
  dismissOutbound n s law := dep.keepOr (dismissOutbound_frame n s) B.dismissOutbound law (fun kept => kept n s law)
  setPosition a b s law := dep.keepOr (setPosition_frame a b s) B.setPosition law (fun kept => kept a b s law)
  setPriority a b s law := dep.keepOr (setPriority_frame a b s) B.setPriority law (fun kept => kept a b s law)
  alarmCancel s law c1 := dep.keepOr (alarmCancel_frame s) B.alarmCancel law (fun kept => kept s law c1)
  head h s law c1 c2 := dep.keepOr (takeHead_frame h s) B.head law (fun kept => kept h s law c1 c2)
  backoffEnd n s law := dep.keepOr (takeBackoffEnd_frame n s) B.backoffEnd law (fun kept => kept n s law)
  retryLimit n s law := dep.keepOr (takeRetryLimit_frame n s) B.retryLimit law (fun kept => kept n s law)
  linkLost s law := dep.keepOr (takeLinkLost_frame s) B.linkLost law (fun kept => kept s law)
  contention s law := dep.keepOr (takeContention_frame s) B.contention law (fun kept => kept s law)
  reserved n s law := dep.keepOr (takeReserved_frame n s) B.reserved law (fun kept => kept n s law)
  txEnd s law := dep.keepOr (takeTransmissionEnd_frame s) B.txEnd law (fun kept => kept s law)
  blindEnd s law := dep.keepOr (takeBlindEnd_frame s) B.blindEnd law (fun kept => kept s law)
  offer a o s law c1 := dep.keepOr (takeOffer_frame a o s) B.offer law (fun kept => kept a o s law c1)
  award n s law := dep.keepOr (takeAward_frame n s) B.award law (fun kept => kept n s law)
  lost n s law := dep.keepOr (takeLost_frame n s) B.lost law (fun kept => kept n s law)
  withdraw n s law := dep.keepOr (takeWithdraw_frame n s) B.withdraw law (fun kept => kept n s law)
  jobCancel n s law := dep.keepOr (cancelJob_frame n s) B.jobCancel law (fun kept => kept n s law)
  poll s law := dep.keepOr (refreshStatus_frame .poll s) B.poll law (fun kept => kept s law)
  message a n c t s c0 law := dep.keepOr (takeMessage_frame a n c t s) B.message law (fun kept => kept a n c t s c0 law)
  alertSeen s law c1 := dep.keepOr (takeAlertSeen_frame s) B.alertSeen law (fun kept => kept s law c1)
  standDown s law c1 := dep.keepOr (takeStandDown_frame s) B.standDown law (fun kept => kept s law c1)
  beaconHold n s law := dep.keepOr (takeBeaconHold_frame n s) B.beaconHold law (fun kept => kept n s law)
  levels a b s law c1 := dep.keepOr (takeLevels_frame a b s) B.levels law (fun kept => kept a b s law c1)
  armed a b s law := dep.keepOr (takeArmed_frame a b s) B.armed law (fun kept => kept a b s law)
  stuck a s law := dep.keepOr (takeStuck_frame a s) B.stuck law (fun kept => kept a s law)
  cancelExpiry s law c1 := dep.keepOr (takeCancelExpiry_frame s) B.cancelExpiry law (fun kept => kept s law c1)
  cycleStart s law := dep.keepOr (takeCycleStart_frame s) B.cycleStart law (fun kept => kept s law)
  burst s law := dep.keepOr (takeBurst_frame s) B.burst law (fun kept => kept s law)
  resumeExpiry s law := dep.keepOr (takeResumeExpiry_frame s) B.resumeExpiry law (fun kept => kept s law)
  statusInterval s law := dep.keepOr (takeStatusInterval_frame s) B.statusInterval law (fun kept => kept s law)
  presenceExpiry s law := dep.keepOr (takePresenceExpiry_frame s) B.presenceExpiry law (fun kept => kept s law)
  deadline n s law := dep.keepOr (takeDeadline_frame n s) B.deadline law (fun kept => kept n s law)
  awardExpiry n s law := dep.keepOr (takeAwardExpiry_frame n s) B.awardExpiry law (fun kept => kept n s law)
  lose f s law := B.losePower dep f s law
  cold s _ := B.cold s
  warm s law := B.warm s law

/-! ## A CYCLE HEAD and the retry limit, for a law that is not about the queue (R146, R161, R162) -/

section
variable {D : List Field} {P : State → Prop} (dep : DependsOn D P) (beyond : Avoids D [.draws, .radio, .terminal])
  (failed : ∀ e s, P s → P (ownerFailed e s))
include dep beyond

/-- The queue, the count of draws and the notices of the terminal are none of the law's. -/
theorem DependsOn.keepRadio {F : List Field} {s t : State} (frame : changesOnly F s t) (within : ∀ f ∈ F, f ∈ [Field.draws, .radio, .terminal])
    (law : P s) : P t := dep.keep frame (fun f hf hF => beyond f hf (within f hF)) law

include failed

/-- The owners of the entries that fail keep the law, so an entry not acknowledged does. -/
theorem DependsOn.notAcknowledged (n : Nat) (s : State) (law : P s) : P (notAcknowledged n s) := by
  unfold Machine.notAcknowledged
  split
  · rename_i e _
    split
    · unfold retryEntry
      split
      · exact dep.keepRadio beyond (changeEntry_frame _ _ _) (by simp) law
      · split
        · exact failed e _ (dep.keepRadio beyond (dropEntry_frame _ _) (by simp) law)
        · refine dep.keepRadio beyond (changeEntry_frame _ _ _) (by simp) ?_
          exact dep.keepRadio beyond (F := [.draws]) (by intro f hf; cases f <;> simp_all [Field.same]) (by simp) law
    · exact law
  · exact law

/-- So does an entry past its retry limit. -/
theorem DependsOn.takeRetryLimit (n : Nat) (s : State) (law : P s) : P (takeRetryLimit n s) := by
  unfold Machine.takeRetryLimit
  split
  · rename_i e _
    split
    · exact failed e _ (dep.keepRadio beyond (dropEntry_frame _ _) (by simp) law)
    · exact law
  · exact law

/-- So does a CYCLE HEAD whose acknowledgements keep it. -/
theorem DependsOn.takeHead (acknowledged : ∀ e s, P s → P (ownerAcknowledged e s)) (h : HeadFields) (s : State) (law : P s) :
    P (takeHead h s) := by
  have acks : ∀ l s, P s → P (List.foldl takeAck s l) := by
    intro l
    induction l with
    | nil => exact fun s law => law
    | cons a l ih =>
      refine fun s law => ih _ ?_
      unfold takeAck
      split
      · split
        · rename_i e _
          exact acknowledged e _ (dep.keepRadio beyond (dropEntry_frame _ _) (by simp) law)
        · exact law
      · exact law
  have rest : ∀ l s, P s → P (List.foldl (fun x n => Machine.notAcknowledged n x) s l) := by
    intro l
    induction l with
    | nil => exact fun s law => law
    | cons n l ih => exact fun s law => ih _ (dep.notAcknowledged beyond failed n s law)
  have settled : P (settleAcks h s) := rest _ _ (acks _ _ (dep.keepRadio beyond (lowerBackoffs_frame s) (by simp) law))
  refine dep.keepRadio beyond (openCycle_frame h _) (by simp) ?_
  exact dep.keepRadio beyond (setLink_frame _ _) (by simp) settled

end

end Sys2Proof.Machine
end

section
/-! PROOFS. The law of the Duty Unit (R62, R66, R74, R77) is kept by every step. -/

namespace Sys2Proof.Machine

open Sys2Proof

/-- The Duty Unit's law over the unit itself and whether a trip is in progress. -/
def DutyUnit.lawful (trip : Bool) (d : DutyUnit) : Prop :=
  dutyRow d.state d.signedOn trip d.current.isSome d.next.isSome = true ∧
  (d.presence = .notTracked ↔ d.signedOn = false) ∧
  (d.presenceDue.isSome ↔ d.presence = .present) ∧
  (d.statusDue.isSome ↔ d.signedOn = true) ∧
  (d.soonClear.isSome ↔ d.state = .clearing) ∧
  ∀ m ∈ d.soonClear.toList, 1 ≤ m ∧ m ≤ 15

theorem dutyLaw_iff (s : State) : DutyLaw s ↔ s.duty.lawful s.trip.isSome := Iff.rfl

/-- The law depends on the Duty Unit and on there being a trip. -/
theorem dutyLaw_of_same {s t : State} (hd : t.duty = s.duty) (ht : t.trip.isSome = s.trip.isSome) (law : DutyLaw s) : DutyLaw t := by
  rw [dutyLaw_iff] at *
  rwa [hd, ht]

theorem dutyLaw_depends : DependsOn [.duty, .trip] DutyLaw := fun _ _ same =>
  dutyLaw_of_same (same .duty (by simp)) (congrArg Option.isSome (same .trip (by simp)))

/-- The status-interval timer runs after a STATUS is renewed while signed on; else it stays as it is (R74). -/
def DutyUnit.renewed (due : Nat) (d : DutyUnit) : DutyUnit := { d with statusDue := if d.signedOn then some due else d.statusDue }

@[simp] theorem dutyChanged_duty (r : StatusReason) (s : State) :
    (dutyChanged r s).duty = s.duty.renewed (s.now + s.settings.statusInterval * 1000) := rfl

@[simp] theorem dutyChanged_trip (r : StatusReason) (s : State) : (dutyChanged r s).trip = s.trip := rfl

@[simp] theorem refreshStatus_duty (r : StatusReason) (s : State) :
    (refreshStatus r s).duty = s.duty.renewed (s.now + s.settings.statusInterval * 1000) := rfl

@[simp] theorem refreshStatus_trip (r : StatusReason) (s : State) : (refreshStatus r s).trip = s.trip := rfl

/-- Renewing the STATUS keeps the law. -/
theorem DutyUnit.lawful_renewed {trip : Bool} {d : DutyUnit} (due : Nat) (law : d.lawful trip) : (d.renewed due).lawful trip := by
  obtain ⟨row, tracked, present, status, soon, minutes⟩ := law
  refine ⟨row, tracked, present, ?_, soon, minutes⟩
  cases h : d.signedOn <;> simp_all [renewed]

theorem refreshStatus_keeps_dutyLaw (r : StatusReason) {s : State} (law : DutyLaw s) : DutyLaw (refreshStatus r s) :=
  DutyUnit.lawful_renewed _ law

theorem dutyChanged_keeps_dutyLaw (r : StatusReason) {s : State} (law : DutyLaw s) : DutyLaw (dutyChanged r s) :=
  DutyUnit.lawful_renewed _ law

/-! ## Signs of the terminal, signing on and off (R65, R77) -/

theorem terminalSign_keeps_dutyLaw (s : State) (law : DutyLaw s) : DutyLaw (terminalSign s) := by
  obtain ⟨row, tracked, present, status, soon, minutes⟩ := law
  unfold terminalSign
  split
  · split
    · exact dutyChanged_keeps_dutyLaw _ ⟨row, by simp_all, by simp, status, soon, minutes⟩
    · have tracks : s.duty.presence = .present := by cases h : s.duty.presence <;> simp_all
      exact ⟨row, tracked, by simp [tracks], status, soon, minutes⟩
  · exact ⟨row, tracked, present, status, soon, minutes⟩

theorem signOn_keeps_dutyLaw (s : State) (law : DutyLaw s) : DutyLaw (signOn s).1 := by
  unfold signOn
  split
  · exact law
  · split
    · exact law
    · obtain ⟨row, tracked, present, status, soon, minutes⟩ := law
      change DutyUnit.lawful s.trip.isSome (DutyUnit.renewed _ _)
      refine ⟨?_, by simp [DutyUnit.renewed], by simp [DutyUnit.renewed], by simp [DutyUnit.renewed], ?_, minutes⟩ <;>
        cases h : s.duty.state <;> simp_all [DutyUnit.renewed, DutyState.signedOn, dutyRow]

theorem signOff_keeps_dutyLaw (s : State) (law : DutyLaw s) : DutyLaw (signOff s).1 := by
  unfold signOff
  split
  · exact law
  · split
    · exact law
    · rename_i free
      obtain ⟨row, tracked, present, status, soon, minutes⟩ := law
      simp only [not_or, Bool.not_eq_true] at free
      refine dutyChanged_keeps_dutyLaw _ ⟨?_, by simp, by simp, by simp, ?_, by simp⟩ <;>
        cases h : s.duty.state <;> simp_all [DutyState.signedOff, dutyRow]

/-! ## SOON CLEAR, CANCEL CLEAR and the job slots (R66 to R71) -/

theorem soonClear_keeps_dutyLaw (n : Nat) (s : State) (law : DutyLaw s) : DutyLaw (soonClear n s).1 := by
  have bounds : 1 ≤ clamp 1 15 n ∧ clamp 1 15 n ≤ 15 := by unfold clamp; omega
  have ⟨row, tracked, present, status, soon, minutes⟩ := law
  unfold soonClear
  split
  · rename_i free
    unfold takeSoonClear
    simp only [done]
    split
    · rename_i hired
      refine dutyChanged_keeps_dutyLaw _ ⟨?_, tracked, present, status, by simp, by simpa using bounds⟩
      simp_all [dutyRow]
    · split
      · exact law
      · refine refreshStatus_keeps_dutyLaw _ ⟨row, tracked, present, status, ?_, by simpa using bounds⟩
        simp_all
  · exact law

theorem cancelClear_keeps_dutyLaw (s : State) (law : DutyLaw s) : DutyLaw (cancelClear s).1 := by
  have ⟨row, tracked, present, status, soon, minutes⟩ := law
  unfold cancelClear
  split
  · refine dutyChanged_keeps_dutyLaw _ ⟨?_, tracked, present, status, by simp, by simp⟩
    simp_all [dutyRow]
  · exact law

theorem noShow_keeps_dutyLaw (s : State) (law : DutyLaw s) : DutyLaw (noShow s).1 := by
  have ⟨row, tracked, present, status, soon, minutes⟩ := law
  unfold noShow
  split
  · split
    · refine dutyChanged_keeps_dutyLaw _ ⟨?_, tracked, present, status, ?_, minutes⟩ <;> simp_all [dutyRow]
    · exact law
  · exact law

theorem cancelJob_keeps_dutyLaw (n : Nat) (s : State) (law : DutyLaw s) : DutyLaw (cancelJob n s) := by
  have ⟨row, tracked, present, status, soon, minutes⟩ := law
  have emptied : DutyLaw (emptyPlaces n s) := by
    refine ⟨?_, tracked, present, status, ?_, minutes⟩
    · by_cases hc : slotHolds n s.duty.current = true <;> by_cases hn : slotHolds n s.duty.next = true <;>
        cases hs : s.duty.state <;> simp_all [emptyPlaces, dutyRow]
    · simp only [emptyPlaces]
      split <;> simp_all
  unfold cancelJob
  split
  · exact dutyChanged_keeps_dutyLaw _ emptied
  · split
    · exact refreshStatus_keeps_dutyLaw _ emptied
    · split
      · exact emptied
      · exact law

theorem placeJob_keeps_dutyLaw (o : Offer) (s : State) (law : DutyLaw s) : DutyLaw (placeJob o s) := by
  have ⟨row, tracked, present, status, soon, minutes⟩ := law
  unfold placeJob
  split
  · rename_i slot
    have vacant : s.duty.state = .vacant := by
      unfold jobSlot at slot
      split at slot <;> simp_all
    refine dutyChanged_keeps_dutyLaw _ ⟨?_, tracked, present, status, ?_, minutes⟩ <;>
      simp_all [passJob, removeAccept, dropOffer, dutyRow]
  · rename_i slot
    change DutyUnit.lawful s.trip.isSome (DutyUnit.renewed _ { s.duty with next := some o.job })
    refine DutyUnit.lawful_renewed _ ⟨?_, tracked, present, status, soon, minutes⟩
    unfold jobSlot at slot
    split at slot <;> simp_all [dutyRow]
  · exact law

/-! ## Trips (R18, R40, R44, R63, R64) -/

theorem flagDown_keeps_dutyLaw (m n : Nat) (s : State) (law : DutyLaw s) : DutyLaw (flagDown m n s).1 := by
  obtain ⟨row, tracked, present, status, soon, minutes⟩ := id law
  unfold flagDown
  split
  · exact law
  · rename_i idle
    split
    · exact law
    · split
      · exact law
      · split
        · exact law
        · rename_i mode _ _ i _ _
          change DutyUnit.lawful true (DutyUnit.renewed _ { (startTrip mode n i.image s).duty with state := .hired, current := none })
          rw [startTrip_frame mode n i.image s .duty (by decide)]
          refine DutyUnit.lawful_renewed _ ⟨?_, tracked, present, status, ?_, minutes⟩ <;>
            cases h : s.duty.state <;> simp_all [dutyRow]

/-- The Duty Unit's part of a CLEAR keeps its law (R64). -/
theorem DutyUnit.lawful_afterClear {d : DutyUnit} (law : d.lawful true) : d.afterClear.lawful false := by
  obtain ⟨row, tracked, present, status, soon, minutes⟩ := law
  unfold afterClear
  split <;> refine ⟨?_, tracked, present, status, by simp, by simp⟩ <;> cases h : d.state <;> simp_all [dutyRow]

theorem clear_keeps_dutyLaw (s : State) (law : DutyLaw s) : DutyLaw (clear s).1 := by
  unfold clear
  split
  · exact law
  · rename_i t trip
    split
    · exact law
    · rename_i total _ _
      have unit : (leaveHired (endTrip (activatePending (closeTrip t total s)))).duty = s.duty.afterClear := by
        change (activatePending (closeTrip t total s)).duty.afterClear = _
        rw [activatePending_frame _ .duty (by decide), closeTrip_frame t total s .duty (by decide)]
      refine dutyChanged_keeps_dutyLaw _ ((dutyLaw_iff _).mpr ?_)
      rw [unit]
      exact DutyUnit.lawful_afterClear (by rw [dutyLaw_iff, trip] at law; exact law)

/-! A trip in progress stays one. -/

theorem takeEvaluation_trip_isSome (s : State) : (takeEvaluation s).trip.isSome = s.trip.isSome := by
  unfold takeEvaluation
  split
  · rfl
  · split
    · rename_i t i trip _
      split
      · obtain ⟨_, _, _, made⟩ := evaluate_eq i.image t { reach _ s with evalDue := some (_ + 1000) }
        rw [made, trip]
        rfl
      · rfl
    · rfl

theorem partialEvaluate_trip_isSome (img : Image) (t : Trip) (s : State) : (partialEvaluate img t s).trip.isSome = true := by
  unfold partialEvaluate
  rw [chargeNotices_frame _ _ .trip (by decide)]
  rfl

theorem stop_trip_isSome (s : State) : (stop s).1.trip.isSome = s.trip.isSome := by
  unfold stop
  split
  · rename_i t trip
    split
    · simp only [done, takeStop, partialOf, Option.isSome_map]
      split
      · rw [partialEvaluate_trip_isSome, trip]
        rfl
      · rfl
    · rfl
  · rfl

theorem resume_trip_isSome (s : State) : (resume s).1.trip.isSome = s.trip.isSome := by
  unfold resume
  split
  · rfl
  · rename_i trip
    split
    · rfl
    · split
      · rw [trip]; rfl
      · rfl

theorem addExtra_trip_isSome (n : Nat) (s : State) : (addExtra n s).1.trip.isSome = s.trip.isSome := by
  unfold addExtra
  split
  · rfl
  · rename_i trip
    split
    · rfl
    · split
      · rfl
      · rw [trip]; rfl

/-- An alarm line may mark the trip, and leaves it in progress (R48). -/
theorem takeLevels_trip_isSome (a b : Option Level) (s : State) : (takeLevels a b s).trip.isSome = s.trip.isSome := by
  unfold takeLevels
  simp only
  split
  · unfold takePress
    split
    · rw [escalate_frame _ .trip (by decide)]
    · simp only [beginEmergency]
      rw [noticeEmergency_frame _ .trip (by decide), beginMark_frame _ .trip (by decide), recheck_frame _ .trip (by decide)]
      simp only [enterEmergency, Option.isSome_map]
      rw [cutOff_frame _ .trip (by decide)]
  · rfl

/-! ## The Radio Link's outcomes (R75, R76) -/

theorem statusAcknowledged_keeps_dutyLaw (c : Bool) (s : State) (law : DutyLaw s) : DutyLaw (statusAcknowledged c s) := by
  unfold statusAcknowledged
  split <;> exact law

theorem jobEventFailed_keeps_dutyLaw (k : JobEventKind) (n : Nat) (s : State) (law : DutyLaw s) : DutyLaw (jobEventFailed k n s) :=
  refreshStatus_keeps_dutyLaw _ law

theorem ownerAcknowledged_keeps_dutyLaw (e : Entry) (s : State) (law : DutyLaw s) : DutyLaw (ownerAcknowledged e s) := by
  unfold ownerAcknowledged
  split
  case h_6 => exact statusAcknowledged_keeps_dutyLaw _ s law
  case h_1 => exact law
  case h_2 => exact dutyLaw_depends.keep (acceptAcknowledged_frame _ _) (by decide) law
  case h_4 => exact dutyLaw_depends.keep (fareTotalAcknowledged_frame s) (by decide) law
  case h_8 =>
    exact dutyLaw_depends.keep (queueWaiting_frame _) (by decide) (dutyLaw_depends.keep (resolveOutbound_frame _ _ _) (by decide) law)
  all_goals exact dutyLaw_depends.keep (queueWaiting_frame s) (by decide) law

theorem ownerFailed_keeps_dutyLaw (e : Entry) (s : State) (law : DutyLaw s) : DutyLaw (ownerFailed e s) := by
  unfold ownerFailed
  split
  case h_3 => exact dutyLaw_depends.keep (queueWaiting_frame _) (by decide) (jobEventFailed_keeps_dutyLaw _ _ s law)
  case h_8 =>
    exact dutyLaw_depends.keep (queueWaiting_frame _) (by decide) (dutyLaw_depends.keep (resolveOutbound_frame _ _ _) (by decide) law)
  case h_5 | h_7 => exact dutyLaw_depends.keep (queueWaiting_frame s) (by decide) law
  all_goals exact law

/-! ## Losses and starts (R62, R178, R179) -/

/-- The Duty Unit at a start meets its law. -/
theorem dutyLaw_atStart {s : State} (h : s.duty = dutyAtStart s.trip) : DutyLaw s := by
  rw [dutyLaw_iff, h]
  unfold dutyAtStart DutyUnit.lawful
  cases s.trip <;> simp [DutyUnit.reset, dutyRow]

/-- A part that goes down meets it, whatever it was (R178). -/
theorem goDown_dutyLaw (s : State) : DutyLaw (goDown s) := dutyLaw_atStart rfl

theorem continueTrip_trip_isSome (s : State) : (continueTrip s).trip.isSome = s.trip.isSome := by
  rw [continueTrip_eq]
  cases s.trip with
  | none => rfl
  | some t => cases h : t.phase <;> simp [h]

theorem warmStart_dutyLaw (s : State) : DutyLaw (warmStart s) := by
  have found : DutyLaw (checkPending (checkActive { resetVolatile s with power := .up })) := by
    refine dutyLaw_depends.keep (checkPending_frame _) (by decide) (dutyLaw_depends.keep (checkActive_frame _) (by decide) ?_)
    exact dutyLaw_atStart rfl
  have continued := dutyLaw_of_same (continueTrip_frame _ .duty (by decide)) (continueTrip_trip_isSome _) found
  refine dutyLaw_depends.keep (restartBeacon_frame _) (by decide) (dutyLaw_depends.keep (ensureFareTotal_frame _) (by decide) ?_)
  exact dutyLaw_depends.keep (continueEmergency_frame _) (by decide) continued

/-! ## Every step -/

/-- What the law of the Duty Unit takes of each owner that touches it. -/
theorem dutyLaw_beyond : KeptBeyond [.duty, .trip] DutyLaw where
  sign := .inr terminalSign_keeps_dutyLaw
  evaluation := .inr fun s law _ => dutyLaw_of_same (takeEvaluation_frame s .duty (by decide)) (takeEvaluation_trip_isSome s) law
  flagDown := .inr flagDown_keeps_dutyLaw
  stop := .inr fun s => dutyLaw_of_same (stop_frame s .duty (by decide)) (stop_trip_isSome s)
  resume := .inr fun s => dutyLaw_of_same (resume_frame s .duty (by decide)) (resume_trip_isSome s)
  clear := .inr clear_keeps_dutyLaw
  addExtra := .inr fun n s => dutyLaw_of_same (addExtra_frame n s .duty (by decide)) (addExtra_trip_isSome n s)
  signOn := .inr signOn_keeps_dutyLaw
  signOff := .inr signOff_keeps_dutyLaw
  soonClear := .inr soonClear_keeps_dutyLaw
  cancelClear := .inr cancelClear_keeps_dutyLaw
  noShow := .inr noShow_keeps_dutyLaw
  head := .inr fun h s law _ _ =>
    dutyLaw_depends.takeHead (by decide) ownerFailed_keeps_dutyLaw ownerAcknowledged_keeps_dutyLaw h s law
  retryLimit := .inr (dutyLaw_depends.takeRetryLimit (by decide) ownerFailed_keeps_dutyLaw)
  award := .inr fun n s law => by
    unfold takeAward
    split
    · exact law
    · split
      · split
        · exact placeJob_keeps_dutyLaw _ s law
        · exact law
      · exact law
  withdraw := .inr fun n s law => by
    unfold takeWithdraw withdrawJob
    repeat' split
    all_goals first | exact law | exact cancelJob_keeps_dutyLaw n s law | exact dutyLaw_depends.keep (endOffer_frame _ _ _) (by decide) law
  jobCancel := .inr cancelJob_keeps_dutyLaw
  poll := .inr fun _ => refreshStatus_keeps_dutyLaw _
  levels := .inr fun a b s law _ => dutyLaw_of_same (takeLevels_frame a b s .duty (by decide)) (takeLevels_trip_isSome a b s) law
  statusInterval := .inr fun s law => by
    unfold takeStatusInterval
    split
    · exact law
    · exact refreshStatus_keeps_dutyLaw _ law
  presenceExpiry := .inr fun s law => by
    have ⟨row, tracked, present, status, soon, minutes⟩ := law
    unfold takePresenceExpiry
    split
    · exact law
    · split
      · exact dutyChanged_keeps_dutyLaw _ ⟨row, by simp_all, by simp, status, soon, minutes⟩
      · exact law
  down s _ := goDown_dutyLaw s
  abandoned _ _ _ := goDown_dutyLaw _
  cold _ := dutyLaw_atStart rfl
  warm s _ := warmStart_dutyLaw s

/-- Settles O7: the law of the Duty Unit is kept by every owner that touches the unit or whether a trip is in progress. -/
theorem dutyLawIsKept : Obligations.DutyLawIsKept := keeps_of_owners (dutyLaw_beyond.keptByOwners dutyLaw_depends)

end Sys2Proof.Machine
end

section
/-! PROOFS. The law of the Offer Table (R87, R88, R107) is kept by every step. -/

namespace Sys2Proof.Machine

open Sys2Proof

/-! ## The law over the entries -/

/-- What the law says of the entries, with the arrival order that comes next. -/
def OffersLawful (es : List Offer) (nextArrival : Nat) : Prop :=
  es.length ≤ 8 ∧ (es.map Offer.number).Nodup ∧ es.countP Offer.accepted ≤ 1 ∧ (es.map Offer.arrival).Pairwise (· < ·) ∧
  ∀ o ∈ es, o.arrival < nextArrival ∧ 5 ≤ o.deadline ∧ o.deadline ≤ 60 ∧ o.number ≠ 0

/-- What the law says of the zone list (R107). -/
def ZonesLawful (zs : List Nat) : Prop := zs.length ≤ 6 ∧ zs.Nodup ∧ ∀ z ∈ zs, 1 ≤ z ∧ z ≤ 999

theorem offerLaw_iff (s : State) : OfferLaw s ↔ OffersLawful s.offers.entries s.offers.nextArrival ∧ ZonesLawful s.offers.zones := by
  unfold OfferLaw OffersLawful ZonesLawful
  tauto

theorem offerLaw_depends : DependsOn [.offers] OfferLaw := fun s t same law => by
  have offers : t.offers = s.offers := same .offers (by simp)
  rw [offerLaw_iff] at *
  rwa [offers]

/-- An entry whose state alone has changed, and that is accepted only if it was. -/
def Offer.Settles (o x : Offer) : Prop := x.number = o.number ∧ x.arrival = o.arrival ∧ x.deadline = o.deadline ∧ (x.accepted = true → o.accepted = true)

section
variable {es : List Offer} {next : Nat}

/-- A change of states in which no entry becomes accepted keeps the law of the entries. -/
theorem OffersLawful.map (law : OffersLawful es next) (f : Offer → Offer) (settles : ∀ o ∈ es, o.Settles (f o)) :
    OffersLawful (es.map f) next := by
  obtain ⟨room, numbers, single, order, each⟩ := law
  have sameNumbers : (es.map f).map Offer.number = es.map Offer.number := by
    rw [List.map_map]
    exact List.map_congr_left fun o ho => (settles o ho).1
  have sameArrivals : (es.map f).map Offer.arrival = es.map Offer.arrival := by
    rw [List.map_map]
    exact List.map_congr_left fun o ho => (settles o ho).2.1
  refine ⟨by simpa using room, by rwa [sameNumbers], ?_, by rwa [sameArrivals], ?_⟩
  · rw [List.countP_map]
    exact le_trans (List.countP_mono_left fun o ho => (settles o ho).2.2.2) single
  · intro x hx
    obtain ⟨o, ho, rfl⟩ := List.mem_map.mp hx
    obtain ⟨number, arrival, deadline, -⟩ := settles o ho
    rw [number, arrival, deadline]
    exact each o ho

/-- Entries may leave the table. -/
theorem OffersLawful.filter (law : OffersLawful es next) (p : Offer → Bool) : OffersLawful (es.filter p) next := by
  obtain ⟨room, numbers, single, order, each⟩ := law
  have sub : (es.filter p).Sublist es := List.filter_sublist
  exact ⟨le_trans sub.length_le room, numbers.sublist (sub.map _), le_trans (sub.countP_le) single,
    order.sublist (sub.map _), fun o ho => each o (sub.subset ho)⟩

/-- An entry that is not accepted may join the table of fewer than eight, under a number not yet held (R88). -/
theorem OffersLawful.append (law : OffersLawful es next) {o : Offer} (room : es.length < 8) (fresh : ∀ x ∈ es, x.number ≠ o.number)
    (arrival : o.arrival = next) (deadline : 5 ≤ o.deadline ∧ o.deadline ≤ 60) (number : o.number ≠ 0) (openEntry : o.accepted = false) :
    OffersLawful (es ++ [o]) (next + 1) := by
  obtain ⟨_, numbers, single, order, each⟩ := law
  refine ⟨by simpa using room, ?_, ?_, ?_, ?_⟩
  · simp only [List.map_append, List.map_cons, List.map_nil]
    refine List.nodup_append.mpr ⟨numbers, by simp, ?_⟩
    simpa using fun x hx => fresh x hx
  · simpa [List.countP_append, openEntry] using single
  · simp only [List.map_append, List.map_cons, List.map_nil, List.pairwise_append]
    refine ⟨order, by simp, ?_⟩
    simpa [arrival] using fun x hx => (each x hx).1
  · intro x hx
    rcases List.mem_append.mp hx with old | new
    · obtain ⟨before, rest⟩ := each x old
      exact ⟨by omega, rest⟩
    · obtain rfl : x = o := by simpa using new
      exact ⟨by omega, deadline.1, deadline.2, number⟩

/-- Two entries of one number are one. -/
theorem OffersLawful.unique (law : OffersLawful es next) {o x : Offer} (ho : o ∈ es) (hx : x ∈ es) (h : x.number = o.number) : x = o :=
  List.inj_on_of_nodup_map law.2.1 hx ho h

/-- While none is accepted, one entry may be (R97). -/
theorem OffersLawful.accept (law : OffersLawful es next) (none : ∀ o ∈ es, o.accepted = false) (n due : Nat) :
    OffersLawful (setStateOf n (.accepting due) es) next := by
  obtain ⟨room, numbers, single, order, each⟩ := law
  have field : ∀ {α} (g : Offer → α), (∀ o st, g { o with state := st } = g o) → (setStateOf n (.accepting due) es).map g = es.map g := by
    intro α g hg
    rw [setStateOf, List.map_map]
    refine List.map_congr_left fun o _ => ?_
    simp only [Function.comp]
    split
    · exact hg o _
    · rfl
  refine ⟨by simpa [setStateOf] using room, by rwa [field _ (fun _ _ => rfl)], ?_, by rwa [field _ (fun _ _ => rfl)], ?_⟩
  · rw [setStateOf, List.countP_map]
    calc es.countP (Offer.accepted ∘ fun o => if o.number = n then { o with state := .accepting due } else o)
        ≤ es.countP (fun o => decide (o.number = n)) := List.countP_mono_left fun o ho h => by
          by_contra other
          simp_all
      _ = (es.map Offer.number).count n := by rw [List.count_eq_countP, List.countP_map]; rfl
      _ ≤ 1 := List.nodup_iff_count_le_one.mp numbers n
  · intro x hx
    obtain ⟨o, ho, rfl⟩ := List.mem_map.mp hx
    split <;> exact each o ho

/-- A state that is not an acceptance keeps the law; so does one that follows another acceptance (R101). -/
theorem OffersLawful.setStateOf (law : OffersLawful es next) (n : Nat) (st : OfferState)
    (h : ∀ o ∈ es, o.number = n → ({ o with state := st } : Offer).accepted = true → o.accepted = true) :
    OffersLawful (setStateOf n st es) next := by
  refine law.map _ fun o ho => ?_
  split
  · exact ⟨rfl, rfl, rfl, h o ho ‹_›⟩
  · exact ⟨rfl, rfl, rfl, id⟩

end

/-! ## The operations on the table -/

/-- The law is kept by a change of states in which no entry becomes accepted. -/
theorem offerLaw_of_map {s t : State} (law : OfferLaw s) (f : Offer → Offer) (settles : ∀ o ∈ s.offers.entries, o.Settles (f o))
    (entries : t.offers.entries = s.offers.entries.map f) (zones : t.offers.zones = s.offers.zones)
    (next : t.offers.nextArrival = s.offers.nextArrival) : OfferLaw t := by
  rw [offerLaw_iff] at *
  rw [entries, zones, next]
  exact ⟨law.1.map f settles, law.2⟩

/-- The re-check declines entries (R94). -/
theorem recheck_keeps_offerLaw (s : State) (law : OfferLaw s) : OfferLaw (recheck s) := by
  refine offerLaw_of_map law _ (fun o _ => ?_) rfl rfl rfl
  split
  · exact ⟨rfl, rfl, rfl, by simp [Offer.accepted]⟩
  · exact ⟨rfl, rfl, rfl, id⟩

theorem dutyChanged_keeps_offerLaw (r : StatusReason) (s : State) (law : OfferLaw s) : OfferLaw (dutyChanged r s) :=
  recheck_keeps_offerLaw _ law

theorem terminalSign_keeps_offerLaw (s : State) (law : OfferLaw s) : OfferLaw (terminalSign s) := by
  unfold terminalSign
  split
  · split
    · exact dutyChanged_keeps_offerLaw _ _ law
    · exact law
  · exact law

/-- A state that is not an acceptance, set for an entry (R87). -/
theorem setOffer_keeps_offerLaw (n : Nat) (st : OfferState) (s : State) (law : OfferLaw s)
    (h : ∀ o ∈ s.offers.entries, o.number = n → ({ o with state := st } : Offer).accepted = true → o.accepted = true) :
    OfferLaw (setOffer n st s) := by
  rw [offerLaw_iff] at *
  exact ⟨law.1.setStateOf n st h, law.2⟩

/-- An entry leaves the table. -/
theorem dropOffer_keeps_offerLaw (n : Nat) (s : State) (law : OfferLaw s) : OfferLaw (dropOffer n s) := by
  rw [offerLaw_iff] at *
  exact ⟨law.1.filter _, law.2⟩

theorem removeOffer_keeps_offerLaw (x : Offer) (s : State) (law : OfferLaw s) : OfferLaw (removeOffer x s) :=
  dropOffer_keeps_offerLaw _ _ law

/-- No entry is found under a number that none holds. -/
theorem findOffer_none {n : Nat} {s : State} (h : findOffer n s = none) : ∀ o ∈ s.offers.entries, o.number ≠ n := by
  simpa [findOffer] using h

/-- The entry found stands in the table. -/
theorem findOffer_mem {n : Nat} {s : State} {o : Offer} (h : findOffer n s = some o) : o ∈ s.offers.entries := List.mem_of_find?_eq_some h

/-- An offer is entered under a fresh number (R88, R93). -/
theorem enterOffer_keeps_offerLaw {o : OfferFields} {s : State} (law : OfferLaw s) (room : s.offers.entries.length < 8)
    (fresh : ∀ x ∈ s.offers.entries, x.number ≠ o.number) (number : o.number ≠ 0) : OfferLaw (enterOffer o s) := by
  rw [offerLaw_iff] at *
  have deadline : 5 ≤ clamp 5 60 o.deadline ∧ clamp 5 60 o.deadline ≤ 60 := by unfold clamp; omega
  exact ⟨law.1.append room fresh rfl deadline number rfl, law.2⟩

/-- A filter that drops a member shortens the list. -/
theorem length_filter_lt {α : Type} {p : α → Bool} {l : List α} {x : α} (hx : x ∈ l) (hp : p x = false) : (l.filter p).length < l.length := by
  refine lt_of_le_of_ne (List.length_filter_le p l) fun same => ?_
  have all := List.length_filter_eq_length_iff.mp same x hx
  simp [hp] at all

theorem takeOffer_keeps_offerLaw (a : Address) (o : OfferFields) (s : State) (law : OfferLaw s) (numbered : offerWellNumbered o = true) :
    OfferLaw (takeOffer a o s) := by
  have number : o.number ≠ 0 := by
    simp only [offerWellNumbered, Bool.and_eq_true, decide_eq_true_eq] at numbered
    exact numbered.1
  have declined : ∀ r, OfferLaw (declineDirected o r s) := fun r => offerLaw_depends.keep (declineDirected_frame o r s) (by decide) law
  unfold takeOffer
  split
  · split
    · split
      · exact law
      · exact law
    · rename_i absent
      have fresh := findOffer_none absent
      split
      · exact law
      · unfold filterOffer
        split
        · exact declined _
        · split
          · exact law
          · unfold placeOffer
            split
            · exact enterOffer_keeps_offerLaw law ‹_› fresh number
            · split
              · rename_i x found
                have held := List.mem_of_find?_eq_some found
                refine enterOffer_keeps_offerLaw (removeOffer_keeps_offerLaw x s law) ?_ (fun y hy => ?_) number
                · exact lt_of_lt_of_le (length_filter_lt held (by simp)) law.1
                · exact fresh y (List.mem_of_mem_filter hy)
              · exact declined _
  · exact law

/-! ## The driver's answers (R97 to R100, R107) -/

theorem acceptancePending_false {s : State} (h : ¬acceptancePending s = true) : ∀ o ∈ s.offers.entries, o.accepted = false := by
  simpa [acceptancePending] using h

theorem accept_keeps_offerLaw (n : Nat) (s : State) (law : OfferLaw s) : OfferLaw (accept n s).1 := by
  unfold accept
  split
  · exact law
  · split
    · exact law
    · split
      · exact law
      · rename_i vacant
        split
        · have taken : OfferLaw (setOffer n (.accepting (s.now + 30000)) { s with radio := s.radio.createReserved (.accept n) }) := by
            rw [offerLaw_iff] at *
            exact ⟨law.1.accept (acceptancePending_false vacant) n _, law.2⟩
          simp only [done, takeAccept]
          split
          · refine offerLaw_of_map taken _ (fun o _ => ?_) rfl rfl rfl
            split
            · split
              · exact ⟨rfl, rfl, rfl, id⟩
              · exact ⟨rfl, rfl, rfl, by simp [Offer.accepted]⟩
            · exact ⟨rfl, rfl, rfl, id⟩
          · exact taken
        · exact law
    · exact law

theorem decline_keeps_offerLaw (n : Nat) (s : State) (law : OfferLaw s) : OfferLaw (decline n s).1 := by
  unfold decline
  split
  · exact law
  · split
    · exact law
    · exact setOffer_keeps_offerLaw n _ s law (by simp [Offer.accepted])
    · exact law

theorem dismiss_keeps_offerLaw (n : Nat) (s : State) (law : OfferLaw s) : OfferLaw (dismiss n s).1 := by
  unfold dismiss
  split
  · exact law
  · split
    · exact removeOffer_keeps_offerLaw _ s law
    · exact law

/-- Taking each once does not lengthen a list. -/
theorem onceEach_length_le (zs : List Nat) : (onceEach zs).length ≤ zs.length := by
  induction zs with
  | nil => exact le_refl _
  | cons y ys ih =>
    simp only [onceEach, List.length_cons]
    exact Nat.succ_le_succ (le_trans (List.length_filter_le _ _) ih)

theorem setZones_keeps_offerLaw (zs : List Nat) (s : State) (law : OfferLaw s) : OfferLaw (setZones zs s).1 := by
  unfold setZones
  split
  · rename_i inRange
    rw [offerLaw_iff] at *
    refine ⟨law.1, le_trans (onceEach_length_le zs) inRange.1, onceEach_nodup zs, fun z hz => ?_⟩
    have := List.all_eq_true.mp inRange.2 z ((mem_onceEach z zs).mp hz)
    simpa [within] using this
  · exact law

theorem setOfferMode_keeps_offerLaw (v : Nat) (s : State) (law : OfferLaw s) : OfferLaw (setOfferMode v s).1 := by
  unfold setOfferMode
  split <;> exact law

/-! ## Awards, ends and timers (R96, R101 to R106) -/

theorem endOffer_keeps_offerLaw (o : Offer) (st : OfferState) (s : State) (law : OfferLaw s) (h : ∀ o : Offer, ({ o with state := st } : Offer).accepted = false) :
    OfferLaw (endOffer o st s) := by
  unfold endOffer
  refine setOffer_keeps_offerLaw _ _ _ ?_ (fun x _ _ acc => by simp [h] at acc)
  split <;> exact law

theorem placeJob_keeps_offerLaw (o : Offer) (s : State) (law : OfferLaw s) : OfferLaw (placeJob o s) := by
  have passed : ∀ h d, OfferLaw (passJob o h d s) := fun h d => dropOffer_keeps_offerLaw _ _ law
  unfold placeJob
  split
  · exact dutyChanged_keeps_offerLaw _ _ (passed _ _)
  · exact recheck_keeps_offerLaw _ (passed _ _)
  · exact setOffer_keeps_offerLaw _ _ (removeAccept s) law (by simp [Offer.accepted])

theorem takeAward_keeps_offerLaw (n : Nat) (s : State) (law : OfferLaw s) : OfferLaw (takeAward n s) := by
  unfold takeAward
  split
  · exact law
  · split
    · split
      · exact placeJob_keeps_offerLaw _ s law
      · exact law
    · exact law

theorem takeLost_keeps_offerLaw (n : Nat) (s : State) (law : OfferLaw s) : OfferLaw (takeLost n s) := by
  unfold takeLost
  split
  · split
    · exact law
    · exact endOffer_keeps_offerLaw _ _ s law (fun _ => rfl)
  · exact law

theorem cancelJob_keeps_offerLaw (n : Nat) (s : State) (law : OfferLaw s) : OfferLaw (cancelJob n s) := by
  unfold cancelJob
  split
  · exact dutyChanged_keeps_offerLaw _ _ law
  · split
    · exact law
    · split <;> exact law

theorem takeWithdraw_keeps_offerLaw (n : Nat) (s : State) (law : OfferLaw s) : OfferLaw (takeWithdraw n s) := by
  have cancels : OfferLaw (withdrawJob n s) := by
    unfold withdrawJob
    split
    · exact cancelJob_keeps_offerLaw n s law
    · exact law
  unfold takeWithdraw
  split
  · split
    · exact cancels
    · exact endOffer_keeps_offerLaw _ _ s law (fun _ => rfl)
  · exact cancels

theorem takeDeadline_keeps_offerLaw (n : Nat) (s : State) (law : OfferLaw s) : OfferLaw (takeDeadline n s) := by
  unfold takeDeadline
  split
  · split
    · exact setOffer_keeps_offerLaw _ _ (reach _ s) law (by simp [Offer.accepted])
    · exact law
  · exact law

theorem takeAwardExpiry_keeps_offerLaw (n : Nat) (s : State) (law : OfferLaw s) : OfferLaw (takeAwardExpiry n s) := by
  unfold takeAwardExpiry
  split
  · exact setOffer_keeps_offerLaw _ _ (removeAccept (reach _ s)) law (by simp [Offer.accepted])
  · exact law

theorem acceptAcknowledged_keeps_offerLaw (n : Nat) (s : State) (law : OfferLaw s) : OfferLaw (acceptAcknowledged n s) := by
  unfold acceptAcknowledged
  split
  · rename_i o found
    split
    · rename_i due accepting
      refine setOffer_keeps_offerLaw _ _ s law fun x hx number _ => ?_
      have same : x = o := ((offerLaw_iff s).mp law).1.unique (findOffer_mem found) hx (by rw [number, findOffer_number found])
      simp [same, Offer.accepted, accepting]
    · exact law
  · exact law

theorem ownerAcknowledged_keeps_offerLaw (e : Entry) (s : State) (law : OfferLaw s) : OfferLaw (ownerAcknowledged e s) := by
  unfold ownerAcknowledged
  split
  case h_1 => exact law
  case h_2 => exact acceptAcknowledged_keeps_offerLaw _ s law
  case h_4 => exact offerLaw_depends.keep (fareTotalAcknowledged_frame s) (by decide) law
  case h_6 => exact offerLaw_depends.keep (statusAcknowledged_frame _ s) (by decide) law
  case h_8 =>
    exact offerLaw_depends.keep (queueWaiting_frame _) (by decide) (offerLaw_depends.keep (resolveOutbound_frame _ _ _) (by decide) law)
  all_goals exact offerLaw_depends.keep (queueWaiting_frame s) (by decide) law

theorem ownerFailed_keeps_offerLaw (e : Entry) (s : State) (law : OfferLaw s) : OfferLaw (ownerFailed e s) :=
  offerLaw_depends.keep (ownerFailed_frame e s) (by decide) law

/-! ## What the other owners make of the offers (R65, R70, R95, R127) -/

theorem flagDown_keeps_offerLaw (m n : Nat) (s : State) (law : OfferLaw s) : OfferLaw (flagDown m n s).1 := by
  unfold flagDown
  split
  · exact law
  · split
    · exact law
    · split
      · exact law
      · split
        · exact law
        · rename_i mode _ _ i _ _
          refine dutyChanged_keeps_offerLaw _ _ (offerLaw_of_map (s := hireSlot (startTrip mode n i.image s)) ?_ _ (fun o _ => ?_) rfl rfl rfl)
          · exact offerLaw_depends.keep (hireSlot_frame _) (by decide) (offerLaw_depends.keep (startTrip_frame _ _ _ s) (by decide) law)
          · split
            · exact ⟨rfl, rfl, rfl, fun _ => ‹_›⟩
            · exact ⟨rfl, rfl, rfl, id⟩

theorem clear_keeps_offerLaw (s : State) (law : OfferLaw s) : OfferLaw (clear s).1 := by
  unfold clear
  split
  · exact law
  · split
    · exact law
    · refine dutyChanged_keeps_offerLaw _ _ (offerLaw_depends.keep (leaveHired_frame _) (by decide) ?_)
      refine offerLaw_depends.keep (endTrip_frame _) (by decide) (offerLaw_depends.keep (activatePending_frame _) (by decide) ?_)
      exact offerLaw_depends.keep (closeTrip_frame _ _ s) (by decide) law

theorem takeLevels_keeps_offerLaw (a b : Option Level) (s : State) (law : OfferLaw s) : OfferLaw (takeLevels a b s) := by
  unfold takeLevels
  simp only
  split
  · unfold takePress
    split
    · exact offerLaw_depends.keep (escalate_frame _) (by decide) law
    · refine offerLaw_depends.keep (noticeEmergency_frame _) (by decide) (offerLaw_depends.keep (beginMark_frame _) (by decide) ?_)
      refine recheck_keeps_offerLaw _ (offerLaw_depends.keep (enterEmergency_frame _) (by decide) ?_)
      exact offerLaw_depends.keep (cutOff_frame _) (by decide) law
  · exact law

/-- The table after a start meets the law (R88). -/
theorem offerLaw_reset {s : State} (h : s.offers = OfferTable.reset) : OfferLaw s := by
  rw [offerLaw_iff, h]
  simp [OffersLawful, ZonesLawful, OfferTable.reset]

theorem warmStart_offers (s : State) : (warmStart s).offers = OfferTable.reset := by
  unfold warmStart warmSteps
  rw [restartBeacon_frame _ .offers (by decide), ensureFareTotal_frame _ .offers (by decide), continueEmergency_frame _ .offers (by decide),
    continueTrip_frame _ .offers (by decide), checkPending_frame _ .offers (by decide), checkActive_frame _ .offers (by decide)]
  rfl

/-- What the law of the Offer Table takes of each owner that touches it. -/
theorem offerLaw_beyond : KeptBeyond [.offers] OfferLaw where
  sign := .inr terminalSign_keeps_offerLaw
  flagDown := .inr flagDown_keeps_offerLaw
  clear := .inr clear_keeps_offerLaw
  signOn := .inr fun s law => by
    unfold signOn
    split_ifs
    · exact law
    · exact law
    · exact dutyChanged_keeps_offerLaw _ _ law
  signOff := .inr fun s law => by
    unfold signOff
    split_ifs
    · exact law
    · exact law
    · exact dutyChanged_keeps_offerLaw _ _ law
  soonClear := .inr fun n s law => by
    unfold soonClear takeSoonClear
    split_ifs
    · exact dutyChanged_keeps_offerLaw _ _ law
    · exact law
    · exact law
    · exact law
  cancelClear := .inr fun s law => by
    unfold cancelClear
    split_ifs
    · exact dutyChanged_keeps_offerLaw _ _ law
    · exact law
  noShow := .inr fun s law => by
    unfold noShow
    split
    · split
      · exact dutyChanged_keeps_offerLaw _ _ law
      · exact law
    · exact law
  setZones := .inr setZones_keeps_offerLaw
  setOfferMode := .inr setOfferMode_keeps_offerLaw
  accept := .inr accept_keeps_offerLaw
  decline := .inr decline_keeps_offerLaw
  dismiss := .inr dismiss_keeps_offerLaw
  head := .inr fun h s law _ _ =>
    offerLaw_depends.takeHead (by decide) ownerFailed_keeps_offerLaw ownerAcknowledged_keeps_offerLaw h s law
  offer := .inr takeOffer_keeps_offerLaw
  award := .inr takeAward_keeps_offerLaw
  lost := .inr takeLost_keeps_offerLaw
  withdraw := .inr takeWithdraw_keeps_offerLaw
  jobCancel := .inr cancelJob_keeps_offerLaw
  levels := .inr fun a b s law _ => takeLevels_keeps_offerLaw a b s law
  presenceExpiry := .inr fun s law => by
    unfold takePresenceExpiry
    split
    · exact law
    · split
      · exact dutyChanged_keeps_offerLaw _ _ law
      · exact law
  deadline := .inr takeDeadline_keeps_offerLaw
  awardExpiry := .inr takeAwardExpiry_keeps_offerLaw
  down _ _ := offerLaw_reset rfl
  abandoned _ _ _ := offerLaw_reset rfl
  cold _ := offerLaw_reset rfl
  warm s _ := offerLaw_reset (warmStart_offers s)

/-- Settles O8: the law of the Offer Table is kept by every owner that touches it. -/
theorem offerLawIsKept : Obligations.OfferLawIsKept := keeps_of_owners (offerLaw_beyond.keptByOwners offerLaw_depends)

end Sys2Proof.Machine
end

section
/-! PROOFS. The law of the Message Store (R109, R110, R117, R121) is kept by every step. -/

namespace Sys2Proof.Machine

open Sys2Proof

/-! ## The law over the lists -/

/-- The inbound list and the recently-removed list (R109, R110). -/
def InboundLawful (inbound : List Inbound) (removed : List Nat) : Prop :=
  inbound.length ≤ 16 ∧ (inbound.map Inbound.number).Nodup ∧ removed.length ≤ 8 ∧ removed.Nodup ∧
  ∀ m ∈ inbound, m.number ≠ 0 ∧ m.number ∉ removed

/-- The outbound list and the next local number (R117, R121). -/
def OutboundLawful (outbound : List Outbound) (next : Nat) : Prop :=
  outbound.length ≤ 6 ∧ (outbound.map Outbound.localNumber).Nodup ∧
  (∀ o ∈ outbound, 1 ≤ o.localNumber ∧ o.localNumber ≤ 255 ∧ (o.resolved = true → o.blocks = [])) ∧ 1 ≤ next ∧ next ≤ 255

theorem messageLaw_iff (s : State) : MessageLaw s ↔
    InboundLawful s.messages.inbound s.messages.removed ∧ OutboundLawful s.messages.outbound s.messages.nextLocal := by
  unfold MessageLaw InboundLawful OutboundLawful
  tauto

theorem messageLaw_depends : DependsOn [.messages] MessageLaw := fun s t same law => by
  have messages : t.messages = s.messages := same .messages (by simp)
  rw [messageLaw_iff] at *
  rwa [messages]

section
variable {inbound : List Inbound} {removed : List Nat}

/-- Marks of entries may change. -/
theorem InboundLawful.map (law : InboundLawful inbound removed) (f : Inbound → Inbound) (same : ∀ m, (f m).number = m.number) :
    InboundLawful (inbound.map f) removed := by
  obtain ⟨room, numbers, few, once, each⟩ := law
  refine ⟨by simpa using room, ?_, few, once, ?_⟩
  · rwa [List.map_map, show Inbound.number ∘ f = Inbound.number from funext same]
  · simpa [same] using each

/-- A message of a new number joins the list while it has room (R113). -/
theorem InboundLawful.append (law : InboundLawful inbound removed) {m : Inbound} (room : inbound.length < 16)
    (fresh : ∀ x ∈ inbound, x.number ≠ m.number) (number : m.number ≠ 0) (notRemoved : m.number ∉ removed) :
    InboundLawful (inbound ++ [m]) removed := by
  obtain ⟨_, numbers, few, once, each⟩ := law
  refine ⟨by simpa using room, ?_, few, once, ?_⟩
  · simp only [List.map_append, List.map_cons, List.map_nil]
    exact List.nodup_append.mpr ⟨numbers, by simp, by simpa using fun x hx => fresh x hx⟩
  · intro x hx
    rcases List.mem_append.mp hx with old | new
    · exact each x old
    · obtain rfl : x = m := by simpa using new
      exact ⟨number, notRemoved⟩

/-- A number that joins the recently-removed list stands there once, and the list keeps its bound (R110). -/
theorem addRemoved_lawful {n : Nat} (few : removed.length ≤ 8) (once : removed.Nodup) (fresh : n ∉ removed) :
    (addRemoved n removed).length ≤ 8 ∧ (addRemoved n removed).Nodup ∧ ∀ x, x ∈ addRemoved n removed → x ∈ removed ∨ x = n := by
  unfold addRemoved
  split
  · refine ⟨by simp; omega, ?_, by simp⟩
    exact List.nodup_append.mpr ⟨once, by simp, by simpa using fun x hx (h : x = n) => fresh (h ▸ hx)⟩
  · have sub := List.drop_sublist (removed.length + 1 - Config.removedMax) removed
    refine ⟨by simp; omega, ?_, ?_⟩
    · exact List.nodup_append.mpr ⟨once.sublist sub, by simp, by simpa using fun x hx (h : x = n) => fresh (h ▸ sub.subset hx)⟩
    · intro x hx
      rcases List.mem_append.mp hx with old | new
      · exact .inl (sub.subset old)
      · exact .inr (by simpa using new)

/-- A message deleted passes to the recently-removed list (R110, R116). -/
theorem InboundLawful.delete (law : InboundLawful inbound removed) {m : Inbound} (hm : m ∈ inbound) :
    InboundLawful (inbound.filter (fun x => decide (x.number ≠ m.number))) (addRemoved m.number removed) := by
  obtain ⟨room, numbers, few, once, each⟩ := law
  obtain ⟨few', once', only⟩ := addRemoved_lawful few once (each m hm).2
  have sub : (inbound.filter (fun x => decide (x.number ≠ m.number))).Sublist inbound := List.filter_sublist
  refine ⟨le_trans sub.length_le room, numbers.sublist (sub.map _), few', once', fun x hx => ?_⟩
  obtain ⟨held, other⟩ := List.mem_filter.mp hx
  refine ⟨(each x held).1, fun bad => ?_⟩
  rcases only _ bad with old | new
  · exact (each x held).2 old
  · simp [new] at other

end

section
variable {outbound : List Outbound} {next : Nat}

/-- Entries may change state and content, a resolved one giving up its blocks (R121). -/
theorem OutboundLawful.map (law : OutboundLawful outbound next) (f : Outbound → Outbound) (same : ∀ o, (f o).localNumber = o.localNumber)
    (empty : ∀ o ∈ outbound, (f o).resolved = true → (f o).blocks = []) : OutboundLawful (outbound.map f) next := by
  obtain ⟨room, numbers, each, low, high⟩ := law
  refine ⟨by simpa using room, ?_, ?_, low, high⟩
  · rwa [List.map_map, show Outbound.localNumber ∘ f = Outbound.localNumber from funext same]
  · intro x hx
    obtain ⟨o, ho, rfl⟩ := List.mem_map.mp hx
    rw [same]
    exact ⟨(each o ho).1, (each o ho).2.1, empty o ho⟩

/-- Entries may leave the list. -/
theorem OutboundLawful.filter (law : OutboundLawful outbound next) (p : Outbound → Bool) : OutboundLawful (outbound.filter p) next := by
  obtain ⟨room, numbers, each, low, high⟩ := law
  have sub : (outbound.filter p).Sublist outbound := List.filter_sublist
  exact ⟨le_trans sub.length_le room, numbers.sublist (sub.map _), fun o ho => each o (sub.subset ho), low, high⟩

/-- An entry of a fresh local number joins a list with room, and the number after it comes next (R117, R118). -/
theorem OutboundLawful.append (law : OutboundLawful outbound next) {o : Outbound} (room : outbound.length < 6)
    (fresh : ∀ x ∈ outbound, x.localNumber ≠ o.localNumber) (low : 1 ≤ o.localNumber) (high : o.localNumber ≤ 255) (unresolved : o.resolved = false) :
    OutboundLawful (outbound ++ [o]) (nextLocalAfter o.localNumber) := by
  obtain ⟨_, numbers, each, _, _⟩ := law
  have after := nextLocalAfter_eq low high
  refine ⟨by simpa using room, ?_, ?_, by omega, by omega⟩
  · simp only [List.map_append, List.map_cons, List.map_nil]
    exact List.nodup_append.mpr ⟨numbers, by simp, by simpa using fun x hx => fresh x hx⟩
  · intro x hx
    rcases List.mem_append.mp hx with old | new
    · exact each x old
    · obtain rfl : x = o := by simpa using new
      exact ⟨low, high, by simp [unresolved]⟩

/-- The list in which a place is made for a new entry (R118) is lawful, and has room. -/
theorem OutboundLawful.room (law : OutboundLawful outbound next) {l : List Outbound} (h : roomForOutbound outbound = some l) :
    OutboundLawful l next ∧ l.length < 6 := by
  unfold roomForOutbound at h
  split at h
  · rename_i short
    obtain rfl := Option.some.inj h
    exact ⟨law, short⟩
  · split at h
    · rename_i o found
      obtain rfl := Option.some.inj h
      have held := List.mem_of_find?_eq_some found
      exact ⟨law.filter _, lt_of_lt_of_le (length_filter_lt held (by simp)) law.1⟩
    · simp at h

end

/-! ## The operations on the store -/

/-- The oldest WAITING message is queued (R120). -/
theorem queueWaiting_keeps_messageLaw (s : State) (law : MessageLaw s) : MessageLaw (queueWaiting s) := by
  unfold queueWaiting
  split
  · exact law
  · split
    · rw [messageLaw_iff] at *
      refine ⟨law.1, law.2.map _ (fun o => by split <;> rfl) (fun o ho => ?_)⟩
      split
      · simp [Outbound.resolved]
      · exact (law.2.2.2.1 o ho).2.2
    · exact law

/-- A resolved entry has no blocks (R121). -/
theorem Outbound.resolve_blocks (st : OutboundState) (o : Outbound) : (o.resolve st).blocks = [] := by
  unfold Outbound.resolve Outbound.blocks
  cases o.content <;> rfl

theorem resolveOutbound_keeps_messageLaw (n : Nat) (st : OutboundState) (s : State) (law : MessageLaw s) : MessageLaw (resolveOutbound n st s) := by
  unfold resolveOutbound
  split
  · exact law
  · rw [messageLaw_iff] at *
    refine ⟨law.1, law.2.map _ (fun o => by split <;> rfl) (fun o ho => ?_)⟩
    split
    · exact fun _ => o.resolve_blocks st
    · exact (law.2.2.2.1 o ho).2.2

theorem changeInbound_keeps_messageLaw (n : Nat) (f : Inbound → Inbound) (same : ∀ m, (f m).number = m.number) (s : State)
    (law : MessageLaw s) : MessageLaw (changeInbound n f s) := by
  rw [messageLaw_iff] at *
  exact ⟨law.1.map _ (fun m => by split <;> simp [same]), law.2⟩

theorem takeOutbound_keeps_messageLaw (linked given : Option Nat) (text : List Byte) (s : State) (law : MessageLaw s) :
    MessageLaw (takeOutbound linked given text s).1 := by
  have added : ∀ l c pool, roomForOutbound s.messages.outbound = some l →
      MessageLaw (addOutbound l (freeLocal l 7 s.messages.nextLocal) linked c pool s).1 := by
    intro l c pool hl
    refine queueWaiting_keeps_messageLaw _ ?_
    rw [messageLaw_iff] at *
    obtain ⟨lawful, short⟩ := law.2.room hl
    obtain ⟨k, number, fresh, -⟩ := freeLocal_first l s.messages.nextLocal (by omega) law.2.2.2.2.1 law.2.2.2.2.2
    exact ⟨law.1, lawful.append (o := ⟨freeLocal l 7 s.messages.nextLocal, linked, c, .waiting⟩) short (by rw [number]; exact fresh)
      (by simp only [number]; omega) (by simp only [number]; omega) rfl⟩
  unfold takeOutbound
  split
  · exact law
  · rename_i l hl
    simp only
    split
    · exact added _ _ _ hl
    · split
      · exact added _ _ _ hl
      · exact law

theorem sendMessage_keeps_messageLaw (linked : Option Nat) (canned : Nat) (text : List Byte) (s : State) (law : MessageLaw s) :
    MessageLaw (sendMessage linked canned text s).1 := by
  unfold sendMessage
  split
  · exact law
  · exact takeOutbound_keeps_messageLaw _ _ _ s law

theorem reply_keeps_messageLaw (n canned : Nat) (text : List Byte) (s : State) (law : MessageLaw s) : MessageLaw (reply n canned text s).1 := by
  have sent := sendMessage_keeps_messageLaw (some n) canned text s law
  unfold reply
  split
  · exact law
  · split
    · exact law
    · simp only [markReplied]
      split
      · exact changeInbound_keeps_messageLaw n (fun x => { x with replied := true }) (fun _ => rfl) _ sent
      · exact sent

theorem dismissOutbound_keeps_messageLaw (n : Nat) (s : State) (law : MessageLaw s) : MessageLaw (dismissOutbound n s).1 := by
  unfold dismissOutbound
  split
  · exact law
  · split
    · rw [messageLaw_iff] at *
      exact ⟨law.1, law.2.filter _⟩
    · exact law

/-- No entry is found under a number that none holds. -/
theorem findInbound_none {n : Nat} {s : State} (h : findInbound n s = none) : ∀ m ∈ s.messages.inbound, m.number ≠ n := by
  simpa [findInbound] using h

theorem takeMessage_keeps_messageLaw (a : Address) (n : Nat) (c : MessageClass) (text : List Byte) (s : State) (number : n ≠ 0)
    (law : MessageLaw s) : MessageLaw (takeMessage a n c text s) := by
  have receipted : ∀ st x, MessageLaw x → MessageLaw (answerDirected c n st x) := fun st x lx =>
    messageLaw_depends.keep (answerDirected_frame c n st x) (by decide) lx
  unfold takeMessage
  split
  · split
    · exact receipted _ _ law
    · rename_i absent
      split
      · exact receipted _ _ law
      · rename_i notRemoved
        unfold roomForMessage
        split
        · rename_i room
          split
          · refine receipted _ _ ?_
            rw [messageLaw_iff] at *
            exact ⟨law.1.append room (findInbound_none absent) number (by simpa using notRemoved), law.2⟩
          · exact receipted _ _ law
        · exact receipted _ _ law
  · exact law

theorem markRead_keeps_messageLaw (n : Nat) (s : State) (law : MessageLaw s) : MessageLaw (markRead n s).1 := by
  have marked := changeInbound_keeps_messageLaw n (fun x => { x with read := true }) (fun _ => rfl) s law
  unfold markRead
  split
  · exact law
  · split
    · exact law
    · simp only [done]
      split <;> exact marked

theorem delete_keeps_messageLaw (n : Nat) (s : State) (law : MessageLaw s) : MessageLaw (delete n s).1 := by
  unfold delete
  split
  · exact law
  · rename_i m found
    split
    · exact law
    · rw [messageLaw_iff] at *
      exact ⟨law.1.delete (List.mem_of_find?_eq_some found), law.2⟩

theorem ownerAcknowledged_keeps_messageLaw (e : Entry) (s : State) (law : MessageLaw s) : MessageLaw (ownerAcknowledged e s) := by
  unfold ownerAcknowledged
  split
  case h_1 => exact law
  case h_2 => exact messageLaw_depends.keep (acceptAcknowledged_frame _ s) (by decide) law
  case h_4 => exact messageLaw_depends.keep (fareTotalAcknowledged_frame s) (by decide) law
  case h_6 => exact messageLaw_depends.keep (statusAcknowledged_frame _ s) (by decide) law
  case h_8 => exact queueWaiting_keeps_messageLaw _ (resolveOutbound_keeps_messageLaw _ _ s law)
  all_goals exact queueWaiting_keeps_messageLaw s law

theorem ownerFailed_keeps_messageLaw (e : Entry) (s : State) (law : MessageLaw s) : MessageLaw (ownerFailed e s) := by
  unfold ownerFailed
  split
  case h_3 => exact queueWaiting_keeps_messageLaw _ (messageLaw_depends.keep (jobEventFailed_frame _ _ s) (by decide) law)
  case h_8 => exact queueWaiting_keeps_messageLaw _ (resolveOutbound_keeps_messageLaw _ _ s law)
  case h_5 | h_7 => exact queueWaiting_keeps_messageLaw s law
  all_goals exact law

/-! ## Every step -/

/-- The store after a start meets the law. -/
theorem messageLaw_reset {s : State} (h : s.messages = MessageStore.reset) : MessageLaw s := by
  rw [messageLaw_iff, h]
  simp [InboundLawful, OutboundLawful, MessageStore.reset]

theorem warmStart_messages (s : State) : (warmStart s).messages = MessageStore.reset := by
  unfold warmStart warmSteps
  rw [restartBeacon_frame _ .messages (by decide), ensureFareTotal_frame _ .messages (by decide),
    continueEmergency_frame _ .messages (by decide), continueTrip_frame _ .messages (by decide), checkPending_frame _ .messages (by decide),
    checkActive_frame _ .messages (by decide)]
  rfl

/-- What the law of the Message Store takes of each owner that touches it. -/
theorem messageLaw_beyond : KeptBeyond [.messages] MessageLaw where
  markRead := .inr markRead_keeps_messageLaw
  delete := .inr delete_keeps_messageLaw
  reply := .inr reply_keeps_messageLaw
  sendMessage := .inr (sendMessage_keeps_messageLaw none)
  dismissOutbound := .inr dismissOutbound_keeps_messageLaw
  message := .inr takeMessage_keeps_messageLaw
  head := .inr fun h s law _ _ =>
    messageLaw_depends.takeHead (by decide) ownerFailed_keeps_messageLaw ownerAcknowledged_keeps_messageLaw h s law
  retryLimit := .inr (messageLaw_depends.takeRetryLimit (by decide) ownerFailed_keeps_messageLaw)
  down _ _ := messageLaw_reset rfl
  abandoned _ _ _ := messageLaw_reset rfl
  cold _ := messageLaw_reset rfl
  warm s _ := messageLaw_reset (warmStart_messages s)

/-- Settles O9: the law of the Message Store is kept by every owner that touches it. -/
theorem messageLawIsKept : Obligations.MessageLawIsKept := keeps_of_owners (messageLaw_beyond.keptByOwners messageLaw_depends)

end Sys2Proof.Machine
end

section
/-! PROOFS. The accounting of the Text Block Pool (R79 to R84) is kept by every step, in states whose offers, messages and jobs are lawful. -/

namespace Sys2Proof.Machine

open Sys2Proof

/-! ## The accounting over a list of holders (R79) -/

/-- The pool's law over the holders that exist and the blocks they hold. -/
def Accounts (pool : List Block) (holders : List (Holder × TextRef)) : Prop :=
  pool.length = 64 ∧
  (∀ h ∈ holders, h.2.blocks.Nodup ∧ ∀ n ∈ h.2.blocks, blockOwner pool n = some h.1) ∧
  ∀ n, n < 64 → ∀ o ∈ (blockOwner pool n).toList, ∃ h ∈ holders, h.1 = o ∧ n ∈ h.2.blocks

theorem poolLaw_iff (s : State) : PoolLaw s ↔ Accounts s.pool (textHolders s) := Iff.rfl

section
variable {pool : List Block} {holders holders' : List (Holder × TextRef)}

/-- A block of a holder's list is a block of the pool. -/
theorem Accounts.lt (law : Accounts pool holders) {x : Holder × TextRef} (hx : x ∈ holders) : ∀ n ∈ x.2.blocks, n < pool.length :=
  fun n hn => blockOwner_lt ((law.2.1 x hx).2 n hn)

/-- Holders without blocks may come and go. -/
theorem Accounts.of_same (law : Accounts pool holders) (same : ∀ x, x.2.blocks ≠ [] → (x ∈ holders' ↔ x ∈ holders)) :
    Accounts pool holders' := by
  obtain ⟨size, listed, tagged⟩ := law
  refine ⟨size, fun x hx => ?_, fun n hn o ho => ?_⟩
  · by_cases empty : x.2.blocks = []
    · simp [empty]
    · exact listed x ((same x empty).mp hx)
  · obtain ⟨x, hx, name, holds⟩ := tagged n hn o ho
    exact ⟨x, (same x (List.ne_nil_of_mem holds)).mpr hx, name, holds⟩

/-- A holder releases its blocks (R83). -/
theorem Accounts.release (law : Accounts pool holders) (names : (holders.map Prod.fst).Nodup) {h : Holder} {ref : TextRef}
    (held : (h, ref) ∈ holders) (rest : ∀ x, x.2.blocks ≠ [] → (x ∈ holders' ↔ x ∈ holders ∧ x.1 ≠ h)) :
    Accounts (releaseBlocks ref.blocks pool) holders' := by
  have ⟨size, listed, tagged⟩ := law
  have owner := fun n => releaseBlocks_owner ref.blocks pool n (law.lt held)
  refine ⟨by rw [releaseBlocks_length, size], fun x hx => ?_, fun n hn o ho => ?_⟩
  · by_cases empty : x.2.blocks = []
    · simp [empty]
    obtain ⟨old, other⟩ := (rest x empty).mp hx
    refine ⟨(listed x old).1, fun n hn => ?_⟩
    have tag := (listed x old).2 n hn
    rw [owner, if_neg, tag]
    intro bad
    rw [(listed _ held).2 n bad] at tag
    exact other (Option.some.inj tag).symm
  · rw [owner] at ho
    split at ho
    · simp at ho
    · rename_i kept
      obtain ⟨x, hx, name, holds⟩ := tagged n hn o ho
      refine ⟨x, (rest x (List.ne_nil_of_mem holds)).mpr ⟨hx, fun same => kept ?_⟩, name, holds⟩
      rwa [List.inj_on_of_nodup_map names hx held same] at holds

/-- A new holder is granted free blocks (R80 to R82). -/
theorem Accounts.grant (law : Accounts pool holders) {h : Holder} {k length : Nat} {text : List Byte} (fresh : ∀ x ∈ holders, x.1 ≠ h)
    (rest : ∀ x, x.2.blocks ≠ [] → (x ∈ holders' ↔ x ∈ holders ∨ x = (h, ⟨(grantBlocks h k text pool).2, length⟩))) :
    Accounts (grantBlocks h k text pool).1 holders' := by
  have ⟨size, listed, tagged⟩ := law
  obtain ⟨free, once⟩ := freeNumbers_take_free pool k
  have owner := fun n => writeBlocks_owner h ((freeNumbers pool).take k) text pool n (fun b hb => (free b hb).1)
  refine ⟨by rw [grantBlocks, writeBlocks_length, size], fun x hx => ?_, fun n hn o ho => ?_⟩
  · by_cases empty : x.2.blocks = []
    · simp [empty]
    rcases (rest x empty).mp hx with old | rfl
    · refine ⟨(listed x old).1, fun n hn => ?_⟩
      have tag := (listed x old).2 n hn
      rw [grantBlocks, owner, if_neg, tag]
      intro bad
      simp [(free n bad).2] at tag
    · exact ⟨once, fun n hn => by rw [grantBlocks, owner, if_pos (show n ∈ (freeNumbers pool).take k from hn)]⟩
  · rw [grantBlocks, owner] at ho
    split at ho
    · rename_i granted
      obtain rfl : o = h := by simpa using ho
      exact ⟨(o, ⟨_, length⟩), (rest (o, ⟨(grantBlocks o k text pool).2, length⟩) (List.ne_nil_of_mem granted)).mpr (.inr rfl), rfl, granted⟩
    · obtain ⟨x, hx, name, holds⟩ := tagged n hn o ho
      exact ⟨x, (rest x (List.ne_nil_of_mem holds)).mpr (.inl hx), name, holds⟩

/-- The blocks of a holder pass to a new one (R84). -/
theorem Accounts.retag (law : Accounts pool holders) (names : (holders.map Prod.fst).Nodup) {h h' : Holder} {ref : TextRef}
    (held : (h, ref) ∈ holders) (fresh : ∀ x ∈ holders, x.1 ≠ h')
    (rest : ∀ x, x.2.blocks ≠ [] → (x ∈ holders' ↔ (x ∈ holders ∧ x.1 ≠ h) ∨ x = (h', ref))) :
    Accounts (retagBlocks h' ref.blocks pool) holders' := by
  have ⟨size, listed, tagged⟩ := law
  have owner := fun n => retagBlocks_owner h' ref.blocks pool n (law.lt held)
  refine ⟨by rw [retagBlocks_length, size], fun x hx => ?_, fun n hn o ho => ?_⟩
  · by_cases empty : x.2.blocks = []
    · simp [empty]
    rcases (rest x empty).mp hx with ⟨old, other⟩ | rfl
    · refine ⟨(listed x old).1, fun n hn => ?_⟩
      have tag := (listed x old).2 n hn
      rw [owner, if_neg, tag]
      intro bad
      rw [(listed _ held).2 n bad] at tag
      exact other (Option.some.inj tag).symm
    · exact ⟨(listed _ held).1, fun n hn => by rw [owner, if_pos hn]⟩
  · rw [owner] at ho
    split at ho
    · rename_i passed
      obtain rfl : o = h' := by simpa using ho
      exact ⟨(o, ref), (rest (o, ref) (List.ne_nil_of_mem passed)).mpr (.inr rfl), rfl, passed⟩
    · rename_i kept
      obtain ⟨x, hx, name, holds⟩ := tagged n hn o ho
      refine ⟨x, (rest x (List.ne_nil_of_mem holds)).mpr (.inl ⟨hx, fun same => kept ?_⟩), name, holds⟩
      rwa [List.inj_on_of_nodup_map names hx held same] at holds

end

/-! ## The holders of a state -/

/-- Who holds a text. -/
theorem mem_textHolders (s : State) (x : Holder × TextRef) : x ∈ textHolders s ↔
    (∃ o ∈ s.offers.entries, (.offer o.number, o.text) = x) ∨ (∃ j, s.duty.current = some j ∧ (.currentJob, j.text) = x) ∨
    (∃ j, s.duty.next = some j ∧ (.nextJob, j.text) = x) ∨ (∃ m ∈ s.messages.inbound, (.inbound m.number, m.text) = x) ∨
    ∃ o ∈ s.messages.outbound, (.outbound o.localNumber, ⟨o.blocks, 0⟩) = x := by
  simp [textHolders]

/-- Under the laws of the offers and messages no two holders have one name. -/
theorem textHolders_nodup {s : State} (offers : OfferLaw s) (messages : MessageLaw s) : ((textHolders s).map Prod.fst).Nodup := by
  have numbers : (s.offers.entries.map (fun o => Holder.offer o.number)).Nodup := by
    simpa [Function.comp_def] using ((offerLaw_iff s).mp offers).1.2.1.map (f := Holder.offer) (fun a b => by simp)
  have inbound : (s.messages.inbound.map (fun m => Holder.inbound m.number)).Nodup := by
    simpa [Function.comp_def] using ((messageLaw_iff s).mp messages).1.2.1.map (f := Holder.inbound) (fun a b => by simp)
  have outbound : (s.messages.outbound.map (fun o => Holder.outbound o.localNumber)).Nodup := by
    simpa [Function.comp_def] using ((messageLaw_iff s).mp messages).2.2.1.map (f := Holder.outbound) (fun a b => by simp)
  have slot : ∀ (h : Holder) (l : Option Job), (l.toList.map (fun _ => h)).Nodup := fun h l => by cases l <;> simp
  simp only [textHolders, List.map_append, List.map_map, Function.comp_def]
  simp only [List.nodup_append, numbers, inbound, outbound, slot, true_and, List.mem_append, List.mem_map]
  grind

theorem poolLaw_depends : DependsOn [.duty, .offers, .messages, .pool] PoolLaw := fun s t same law => by
  have duty : t.duty = s.duty := same .duty (by simp)
  have offers : t.offers = s.offers := same .offers (by simp)
  have messages : t.messages = s.messages := same .messages (by simp)
  have pool : t.pool = s.pool := same .pool (by simp)
  rw [poolLaw_iff] at *
  rwa [pool, textHolders, duty, offers, messages]

/-- Changes that leave the pool and every text as they are keep the law. -/
theorem poolLaw_of_texts {s t : State} (law : PoolLaw s) (pool : t.pool = s.pool) (texts : textHolders t = textHolders s) : PoolLaw t := by
  rw [poolLaw_iff] at *
  rwa [pool, texts]

/-- Offers that change in neither number nor text leave the holders as they are. -/
theorem textHolders_of_offers {s t : State} (f : Offer → Offer) (same : ∀ o, (f o).number = o.number ∧ (f o).text = o.text)
    (entries : t.offers.entries = s.offers.entries.map f) (current : t.duty.current = s.duty.current) (next : t.duty.next = s.duty.next)
    (messages : t.messages = s.messages) : textHolders t = textHolders s := by
  simp [textHolders, entries, current, next, messages, Function.comp_def, same]

/-- A change of states of the offers keeps the law of the pool. -/
theorem recheck_keeps_poolLaw (s : State) (law : PoolLaw s) : PoolLaw (recheck s) := by
  refine poolLaw_of_texts law rfl (textHolders_of_offers _ (fun o => ?_) rfl rfl rfl rfl)
  split <;> exact ⟨rfl, rfl⟩

theorem dutyChanged_keeps_poolLaw (r : StatusReason) (s : State) (law : PoolLaw s) : PoolLaw (dutyChanged r s) :=
  recheck_keeps_poolLaw _ law

theorem setOffer_keeps_poolLaw (n : Nat) (st : OfferState) (s : State) (law : PoolLaw s) : PoolLaw (setOffer n st s) := by
  refine poolLaw_of_texts law rfl (textHolders_of_offers _ (fun o => ?_) rfl rfl rfl rfl)
  split <;> exact ⟨rfl, rfl⟩

theorem terminalSign_keeps_poolLaw (s : State) (law : PoolLaw s) : PoolLaw (terminalSign s) := by
  unfold terminalSign
  split
  · split
    · exact dutyChanged_keeps_poolLaw _ _ law
    · exact law
  · exact law

/-! ## Offers come and go (R82 to R84, R92, R93, R100, R103) -/

/-- An offer found leaves the table, and its blocks go back (R92, R100). -/
theorem removeOffer_keeps_poolLaw {x : Offer} {s : State} (offers : OfferLaw s) (messages : MessageLaw s) (law : PoolLaw s)
    (held : x ∈ s.offers.entries) : PoolLaw (removeOffer x s) := by
  refine (poolLaw_iff _).mpr (Accounts.release law (textHolders_nodup offers messages) (h := .offer x.number) (ref := x.text) ?_ ?_)
  · exact (mem_textHolders s _).mpr (.inl ⟨x, held, rfl⟩)
  · rintro ⟨h, ref⟩ -
    simp only [mem_textHolders, removeOffer, dropOffer, List.mem_filter, decide_eq_true_eq, Prod.mk.injEq]
    grind

/-- A new offer is one holder more. -/
theorem mem_textHolders_of_offer {s t : State} {o : Offer} (entries : t.offers.entries = s.offers.entries ++ [o]) (duty : t.duty = s.duty)
    (messages : t.messages = s.messages) (x : Holder × TextRef) :
    x ∈ textHolders t ↔ x ∈ textHolders s ∨ x = (.offer o.number, o.text) := by
  simp only [mem_textHolders, entries, duty, messages, List.mem_append, List.mem_singleton, or_and_right, exists_or, exists_eq_left]
  grind

/-- An offer is entered with the blocks it is granted (R82, R93). -/
theorem enterOffer_keeps_poolLaw {o : OfferFields} {s : State} (law : PoolLaw s) (fresh : ∀ x ∈ s.offers.entries, x.number ≠ o.number) :
    PoolLaw (enterOffer o s) := by
  refine (poolLaw_iff _).mpr (Accounts.grant law (h := .offer o.number) (length := offerStored o.text.length s.pool) ?_ ?_)
  · intro x hx
    rw [mem_textHolders] at hx
    grind
  · exact fun x _ => mem_textHolders_of_offer (t := enterOffer o s) (s := s) rfl rfl rfl x

theorem takeOffer_keeps_poolLaw (a : Address) (o : OfferFields) (s : State) (offers : OfferLaw s) (messages : MessageLaw s) (law : PoolLaw s) :
    PoolLaw (takeOffer a o s) := by
  have declined : ∀ r, PoolLaw (declineDirected o r s) := fun r => poolLaw_depends.keep (declineDirected_frame o r s) (by decide) law
  unfold takeOffer
  split
  · split
    · split <;> exact law
    · rename_i absent
      have fresh := findOffer_none absent
      split
      · exact law
      · unfold filterOffer
        split
        · exact declined _
        · split
          · exact law
          · unfold placeOffer
            split
            · exact enterOffer_keeps_poolLaw law fresh
            · split
              · rename_i x found
                have held := List.mem_of_find?_eq_some found
                exact enterOffer_keeps_poolLaw (removeOffer_keeps_poolLaw offers messages law held)
                  (fun y hy => fresh y (List.mem_of_mem_filter hy))
              · exact declined _
  · exact law

/-- The text of an awarded offer passes to the current job of a cab without one (R84, R103). -/
theorem passJob_current_keeps_poolLaw {o : Offer} {s : State} (offers : OfferLaw s) (messages : MessageLaw s) (law : PoolLaw s)
    (held : o ∈ s.offers.entries) (free : s.duty.current = none) (d : DutyState) :
    PoolLaw (passJob o .currentJob { s.duty with current := some o.job, state := d } s) := by
  refine (poolLaw_iff _).mpr (Accounts.retag law (textHolders_nodup offers messages) (h := .offer o.number) (ref := o.text) ?_ ?_ ?_)
  · exact (mem_textHolders s _).mpr (.inl ⟨o, held, rfl⟩)
  · intro x hx
    rw [mem_textHolders, free] at hx
    grind
  · rintro ⟨h, ref⟩ -
    simp only [mem_textHolders, passJob, removeAccept, dropOffer, List.mem_filter, decide_eq_true_eq, Prod.mk.injEq, Offer.job]
    grind

/-- Or to the next job (R84, R103). -/
theorem passJob_next_keeps_poolLaw {o : Offer} {s : State} (offers : OfferLaw s) (messages : MessageLaw s) (law : PoolLaw s)
    (held : o ∈ s.offers.entries) (free : s.duty.next = none) : PoolLaw (passJob o .nextJob { s.duty with next := some o.job } s) := by
  refine (poolLaw_iff _).mpr (Accounts.retag law (textHolders_nodup offers messages) (h := .offer o.number) (ref := o.text) ?_ ?_ ?_)
  · exact (mem_textHolders s _).mpr (.inl ⟨o, held, rfl⟩)
  · intro x hx
    rw [mem_textHolders, free] at hx
    grind
  · rintro ⟨h, ref⟩ -
    simp only [mem_textHolders, passJob, removeAccept, dropOffer, List.mem_filter, decide_eq_true_eq, Prod.mk.injEq, Offer.job]
    grind

/-- The slot that the cab's state calls for is free (R69). -/
theorem jobSlot_free {s : State} (duty : DutyLaw s) :
    (jobSlot s.duty = some .currentJob → s.duty.current = none) ∧ (jobSlot s.duty = some .nextJob → s.duty.next = none) := by
  have row := duty.1
  unfold jobSlot
  split <;> simp_all [dutyRow]

theorem placeJob_keeps_poolLaw {o : Offer} {s : State} (duty : DutyLaw s) (offers : OfferLaw s) (messages : MessageLaw s) (law : PoolLaw s)
    (held : o ∈ s.offers.entries) : PoolLaw (placeJob o s) := by
  obtain ⟨current, next⟩ := jobSlot_free duty
  unfold placeJob
  split
  · exact dutyChanged_keeps_poolLaw _ _ (passJob_current_keeps_poolLaw offers messages law held (current ‹_›) _)
  · exact recheck_keeps_poolLaw _ (passJob_next_keeps_poolLaw offers messages law held (next ‹_›))
  · exact setOffer_keeps_poolLaw _ _ (removeAccept s) law

/-! ## Jobs come to an end (R63, R64, R70, R71, R83, R84) -/

/-- The current job ends: its blocks go back. -/
theorem poolLaw_of_currentJob_ended {s t : State} {j : Job} (offers : OfferLaw s) (messages : MessageLaw s) (law : PoolLaw s)
    (held : s.duty.current = some j) (pool : t.pool = releaseBlocks j.text.blocks s.pool) (current : t.duty.current = none)
    (next : t.duty.next = s.duty.next) (sameOffers : t.offers = s.offers) (sameMessages : t.messages = s.messages) : PoolLaw t := by
  rw [poolLaw_iff, pool]
  refine Accounts.release law (textHolders_nodup offers messages) (h := .currentJob) (ref := j.text) ?_ ?_
  · exact (mem_textHolders s _).mpr (.inr (.inl ⟨j, by simp [held], rfl⟩))
  · rintro ⟨h, ref⟩ -
    simp only [mem_textHolders, current, next, sameOffers, sameMessages, Prod.mk.injEq]
    grind

/-- The next job ends: its blocks go back. -/
theorem poolLaw_of_nextJob_ended {s t : State} {j : Job} (offers : OfferLaw s) (messages : MessageLaw s) (law : PoolLaw s)
    (held : s.duty.next = some j) (pool : t.pool = releaseBlocks j.text.blocks s.pool) (next : t.duty.next = none)
    (current : t.duty.current = s.duty.current) (sameOffers : t.offers = s.offers) (sameMessages : t.messages = s.messages) : PoolLaw t := by
  rw [poolLaw_iff, pool]
  refine Accounts.release law (textHolders_nodup offers messages) (h := .nextJob) (ref := j.text) ?_ ?_
  · exact (mem_textHolders s _).mpr (.inr (.inr (.inl ⟨j, by simp [held], rfl⟩)))
  · rintro ⟨h, ref⟩ -
    simp only [mem_textHolders, current, next, sameOffers, sameMessages, Prod.mk.injEq]
    grind

/-- The next job becomes the current one: its blocks pass (R64, R84). -/
theorem poolLaw_of_nextJob_moved {s t : State} {j : Job} (offers : OfferLaw s) (messages : MessageLaw s) (law : PoolLaw s)
    (free : s.duty.current = none) (held : s.duty.next = some j) (pool : t.pool = retagBlocks .currentJob j.text.blocks s.pool)
    (current : t.duty.current = some j) (next : t.duty.next = none) (sameOffers : t.offers = s.offers) (sameMessages : t.messages = s.messages) :
    PoolLaw t := by
  rw [poolLaw_iff, pool]
  refine Accounts.retag law (textHolders_nodup offers messages) (h := .nextJob) (ref := j.text) ?_ ?_ ?_
  · exact (mem_textHolders s _).mpr (.inr (.inr (.inl ⟨j, by simp [held], rfl⟩)))
  · intro x hx
    rw [mem_textHolders, free] at hx
    grind
  · rintro ⟨h, ref⟩ -
    simp only [mem_textHolders, current, next, sameOffers, sameMessages, Prod.mk.injEq]
    grind

/-! ## Messages come and go (R81, R83, R113, R116 to R121) -/

/-- Messages whose numbers and texts stay leave the holders as they are. -/
theorem textHolders_of_messages {s t : State} (offers : t.offers = s.offers) (duty : t.duty = s.duty)
    (inbound : t.messages.inbound.map (fun m => (m.number, m.text)) = s.messages.inbound.map (fun m => (m.number, m.text)))
    (outbound : t.messages.outbound.map (fun o => (o.localNumber, o.blocks)) = s.messages.outbound.map (fun o => (o.localNumber, o.blocks))) :
    textHolders t = textHolders s := by
  have ins := congrArg (List.map (fun p : Nat × TextRef => (Holder.inbound p.1, p.2))) inbound
  have outs := congrArg (List.map (fun p : Nat × List Nat => (Holder.outbound p.1, (⟨p.2, 0⟩ : TextRef)))) outbound
  simp only [List.map_map, Function.comp_def] at ins outs
  simp [textHolders, offers, duty, ins, outs]

theorem changeInbound_keeps_poolLaw (n : Nat) (f : Inbound → Inbound) (same : ∀ m, (f m).number = m.number ∧ (f m).text = m.text)
    (s : State) (law : PoolLaw s) : PoolLaw (changeInbound n f s) := by
  refine poolLaw_of_texts law rfl (textHolders_of_messages rfl rfl ?_ rfl)
  simp only [changeInbound, List.map_map, List.map_inj_left, Function.comp]
  intro m _
  split
  · simp [same]
  · rfl

theorem queueWaiting_keeps_poolLaw (s : State) (law : PoolLaw s) : PoolLaw (queueWaiting s) := by
  unfold queueWaiting
  split
  · exact law
  · split
    · refine poolLaw_of_texts law rfl (textHolders_of_messages rfl rfl rfl ?_)
      simp only [List.map_map, List.map_inj_left, Function.comp]
      intro m _
      split <;> rfl
    · exact law

/-- A resolved message gives up its blocks (R121). -/
theorem resolveOutbound_keeps_poolLaw (n : Nat) (st : OutboundState) (s : State) (offers : OfferLaw s) (messages : MessageLaw s)
    (law : PoolLaw s) : PoolLaw (resolveOutbound n st s) := by
  unfold resolveOutbound
  split
  · exact law
  · rename_i o found
    have held := List.mem_of_find?_eq_some found
    have number : o.localNumber = n := by simpa using List.find?_some found
    refine (poolLaw_iff _).mpr (Accounts.release law (textHolders_nodup offers messages) (h := .outbound n) (ref := ⟨o.blocks, 0⟩) ?_ ?_)
    · exact (mem_textHolders s _).mpr (.inr (.inr (.inr (.inr ⟨o, held, by rw [number]⟩))))
    · rintro ⟨h, ref⟩ filled
      have gone : ∀ x : Outbound, (x.resolve st).blocks = [] := Outbound.resolve_blocks st
      have named : ∀ x : Outbound, (x.resolve st).localNumber = x.localNumber := fun _ => rfl
      simp only [mem_textHolders, List.mem_map, exists_exists_and_eq_and, Prod.mk.injEq]
      grind

/-- A message is stored with the blocks it is granted (R80, R81, R113). -/
theorem allocMessage_eq {h : Holder} {text : List Byte} {pool pool' : List Block} {ref : TextRef}
    (granted : allocMessage h text pool = some (pool', ref)) : ∃ k,
      pool' = (grantBlocks h k text pool).1 ∧ ref = ⟨(grantBlocks h k text pool).2, text.length⟩ := by
  unfold allocMessage at granted
  split at granted
  · simp only [Option.some.injEq, Prod.mk.injEq] at granted
    exact ⟨_, granted.1.symm, granted.2.symm⟩
  · simp at granted

theorem takeMessage_keeps_poolLaw (a : Address) (n : Nat) (c : MessageClass) (text : List Byte) (s : State) (law : PoolLaw s) :
    PoolLaw (takeMessage a n c text s) := by
  have receipted : ∀ st x, PoolLaw x → PoolLaw (answerDirected c n st x) := fun st x lx =>
    poolLaw_depends.keep (answerDirected_frame c n st x) (by decide) lx
  unfold takeMessage
  split
  · split
    · exact receipted _ _ law
    · rename_i absent
      split
      · exact receipted _ _ law
      · unfold roomForMessage
        split
        · split
          · rename_i pool ref granted
            obtain ⟨k, rfl, rfl⟩ := allocMessage_eq granted
            have fresh := findInbound_none absent
            refine receipted _ _ ((poolLaw_iff _).mpr (Accounts.grant law (h := .inbound n) (length := text.length) ?_ ?_))
            · intro x hx
              rw [mem_textHolders] at hx
              grind
            · rintro ⟨h, ref⟩ -
              simp only [mem_textHolders, List.mem_append, List.mem_singleton, or_and_right, exists_or, exists_eq_left]
              grind
          · exact receipted _ _ law
        · exact receipted _ _ law
  · exact law

theorem markRead_keeps_poolLaw (n : Nat) (s : State) (law : PoolLaw s) : PoolLaw (markRead n s).1 := by
  have marked := changeInbound_keeps_poolLaw n (fun x => { x with read := true }) (fun _ => ⟨rfl, rfl⟩) s law
  unfold markRead
  split
  · exact law
  · split
    · exact law
    · simp only [done]
      split <;> exact marked

theorem delete_keeps_poolLaw (n : Nat) (s : State) (offers : OfferLaw s) (messages : MessageLaw s) (law : PoolLaw s) :
    PoolLaw (delete n s).1 := by
  unfold delete
  split
  · exact law
  · rename_i m found
    have held := List.mem_of_find?_eq_some found
    split
    · exact law
    · refine (poolLaw_iff _).mpr (Accounts.release law (textHolders_nodup offers messages) (h := .inbound m.number) (ref := m.text) ?_ ?_)
      · exact (mem_textHolders s _).mpr (.inr (.inr (.inr (.inl ⟨m, held, rfl⟩))))
      · rintro ⟨h, ref⟩ -
        simp only [mem_textHolders, takeDelete, done, List.mem_filter, decide_eq_true_eq, Prod.mk.injEq]
        grind

/-- The entry that makes way for a new one is resolved and has no blocks (R118, R121). -/
theorem roomForOutbound_texts {s : State} (messages : MessageLaw s) {l : List Outbound} (hl : roomForOutbound s.messages.outbound = some l) :
    (∀ o ∈ l, o ∈ s.messages.outbound) ∧ ∀ o ∈ s.messages.outbound, o.blocks ≠ [] → o ∈ l := by
  have lawful := ((messageLaw_iff s).mp messages).2
  unfold roomForOutbound at hl
  split at hl
  · obtain rfl := Option.some.inj hl
    exact ⟨fun _ h => h, fun _ h _ => h⟩
  · split at hl
    · rename_i x found
      obtain rfl := Option.some.inj hl
      have held := List.mem_of_find?_eq_some found
      have empty := (lawful.2.2.1 x held).2.2 (List.find?_some found)
      refine ⟨fun o ho => List.mem_of_mem_filter ho, fun o ho filled => List.mem_filter.mpr ⟨ho, ?_⟩⟩
      simp only [decide_eq_true_eq]
      intro same
      exact filled (List.inj_on_of_nodup_map lawful.2.1 ho held same ▸ empty)
    · simp at hl

theorem takeOutbound_keeps_poolLaw (linked given : Option Nat) (text : List Byte) (s : State) (messages : MessageLaw s) (law : PoolLaw s) :
    PoolLaw (takeOutbound linked given text s).1 := by
  unfold takeOutbound
  split
  · exact law
  · rename_i l hl
    obtain ⟨old, filled⟩ := roomForOutbound_texts messages hl
    have lawful := ((messageLaw_iff s).mp messages).2
    obtain ⟨k, number, free, -⟩ := freeLocal_first l s.messages.nextLocal (by have := (lawful.room hl).2; omega) lawful.2.2.2.1 lawful.2.2.2.2
    rw [← number] at free
    have fresh : ∀ o ∈ s.messages.outbound, o.blocks ≠ [] → o.localNumber ≠ freeLocal l 7 s.messages.nextLocal :=
      fun o ho hb => free o (filled o ho hb)
    simp only
    split
    · refine queueWaiting_keeps_poolLaw _ ((poolLaw_iff _).mpr (Accounts.of_same law ?_))
      rintro ⟨h, ref⟩ hb
      simp only [mem_textHolders, List.mem_append, List.mem_singleton, or_and_right, exists_or, exists_eq_left, Outbound.blocks]
      grind [Outbound.blocks]
    · split
      · rename_i pool ref granted
        obtain ⟨k, rfl, rfl⟩ := allocMessage_eq granted
        refine queueWaiting_keeps_poolLaw _ ?_
        have cleared : Accounts s.pool ((textHolders s).filter (fun x => decide (x.2.blocks ≠ []))) :=
          Accounts.of_same law (fun x hx => by simp [hx])
        refine (poolLaw_iff _).mpr (Accounts.grant cleared (h := .outbound (freeLocal l 7 s.messages.nextLocal)) (length := 0) ?_ ?_)
        · intro x hx
          rw [List.mem_filter, mem_textHolders] at hx
          grind
        · rintro ⟨h, ref⟩ hb
          simp only [List.mem_filter, mem_textHolders, List.mem_append, List.mem_singleton, or_and_right, exists_or, exists_eq_left]
          grind [Outbound.blocks]
      · exact law

theorem sendMessage_keeps_poolLaw (linked : Option Nat) (canned : Nat) (text : List Byte) (s : State) (messages : MessageLaw s)
    (law : PoolLaw s) : PoolLaw (sendMessage linked canned text s).1 := by
  unfold sendMessage
  split
  · exact law
  · exact takeOutbound_keeps_poolLaw _ _ _ s messages law

theorem reply_keeps_poolLaw (n canned : Nat) (text : List Byte) (s : State) (messages : MessageLaw s) (law : PoolLaw s) :
    PoolLaw (reply n canned text s).1 := by
  have sent := sendMessage_keeps_poolLaw (some n) canned text s messages law
  unfold reply
  split
  · exact law
  · split
    · exact law
    · simp only [markReplied]
      split
      · exact changeInbound_keeps_poolLaw n (fun x => { x with replied := true }) (fun _ => ⟨rfl, rfl⟩) _ sent
      · exact sent

theorem dismissOutbound_keeps_poolLaw (n : Nat) (s : State) (messages : MessageLaw s) (law : PoolLaw s) :
    PoolLaw (dismissOutbound n s).1 := by
  have lawful := ((messageLaw_iff s).mp messages).2
  unfold dismissOutbound
  split
  · exact law
  · rename_i o found
    have held := List.mem_of_find?_eq_some found
    have number : o.localNumber = n := by simpa using List.find?_some found
    split
    · rename_i resolved
      have empty := (lawful.2.2.1 o held).2.2 resolved
      have gone : ∀ x ∈ s.messages.outbound, x.blocks ≠ [] → x.localNumber ≠ n := fun x hx filled same =>
        filled (List.inj_on_of_nodup_map lawful.2.1 held hx (number.trans same.symm) ▸ empty)
      refine (poolLaw_iff _).mpr (Accounts.of_same law ?_)
      rintro ⟨h, ref⟩ hb
      simp only [mem_textHolders, done, List.mem_filter, decide_eq_true_eq, Prod.mk.injEq]
      grind
    · exact law

/-! ## What the other owners make of the texts -/

theorem noShow_keeps_poolLaw (s : State) (offers : OfferLaw s) (messages : MessageLaw s) (law : PoolLaw s) : PoolLaw (noShow s).1 := by
  unfold noShow
  split
  · rename_i j _ held
    split
    · exact dutyChanged_keeps_poolLaw _ _ (poolLaw_of_currentJob_ended offers messages law held rfl rfl rfl rfl rfl)
    · exact law
  · exact law

/-- Blocks released in two goes (R83). -/
theorem releaseBlocks_append (a b : List Nat) (pool : List Block) : releaseBlocks (a ++ b) pool = releaseBlocks b (releaseBlocks a pool) := by
  induction a generalizing pool with
  | nil => rfl
  | cons n a ih => exact ih _

/-- The current-job slot emptied where it holds the number (R71). -/
def emptyCurrent (n : Nat) (s : State) : State :=
  { s with
    pool := releaseBlocks (cancelledBlocks n s.duty.current) s.pool
    duty := { s.duty with current := if slotHolds n s.duty.current then none else s.duty.current } }

theorem emptyCurrent_keeps_poolLaw (n : Nat) (s : State) (offers : OfferLaw s) (messages : MessageLaw s) (law : PoolLaw s) :
    PoolLaw (emptyCurrent n s) := by
  by_cases holds : slotHolds n s.duty.current = true
  · cases held : s.duty.current with
    | none => simp [held] at holds
    | some j =>
      have number : j.number = n := by simpa [held] using holds
      exact poolLaw_of_currentJob_ended offers messages law held (by simp [emptyCurrent, held, cancelledBlocks_of_number number])
        (by simp [emptyCurrent, holds]) rfl rfl rfl
  · have nothing := cancelledBlocks_of_not_held (Bool.not_eq_true _ ▸ holds)
    exact poolLaw_of_texts law (by simp [emptyCurrent, nothing, releaseBlocks]) (by simp [textHolders, emptyCurrent, holds])

/-- Every place that holds the number gives its blocks back (R71). -/
theorem emptyPlaces_keeps_poolLaw (n : Nat) (s : State) (offers : OfferLaw s) (messages : MessageLaw s) (law : PoolLaw s) :
    PoolLaw (emptyPlaces n s) := by
  have emptied := emptyCurrent_keeps_poolLaw n s offers messages law
  have pool : (emptyPlaces n s).pool = releaseBlocks (cancelledBlocks n s.duty.next) (emptyCurrent n s).pool :=
    releaseBlocks_append _ _ _
  by_cases holds : slotHolds n s.duty.next = true
  · cases held : s.duty.next with
    | none => simp [held] at holds
    | some j =>
      have number : j.number = n := by simpa [held] using holds
      refine poolLaw_of_nextJob_ended (s := emptyCurrent n s) offers messages emptied held ?_ ?_ rfl rfl rfl
      · rw [pool, held, cancelledBlocks_of_number number]
      · simp [emptyPlaces, holds]
  · have nothing := cancelledBlocks_of_not_held (Bool.not_eq_true _ ▸ holds)
    refine poolLaw_of_texts emptied (by rw [pool, nothing]; rfl) ?_
    simp [textHolders, emptyPlaces, emptyCurrent, holds]

theorem cancelJob_keeps_poolLaw (n : Nat) (s : State) (offers : OfferLaw s) (messages : MessageLaw s) (law : PoolLaw s) :
    PoolLaw (cancelJob n s) := by
  have emptied := emptyPlaces_keeps_poolLaw n s offers messages law
  unfold cancelJob
  split
  · exact dutyChanged_keeps_poolLaw _ _ emptied
  · split
    · exact emptied
    · split
      · exact emptied
      · exact law

/-- A FLAG DOWN takes over the current job and gives its blocks back (R63). -/
theorem hireSlot_keeps_poolLaw (s : State) (offers : OfferLaw s) (messages : MessageLaw s) (law : PoolLaw s) : PoolLaw (hireSlot s) := by
  cases held : s.duty.current with
  | none => exact poolLaw_of_texts law (by simp [hireSlot, held, releaseBlocks]) (by simp [textHolders, hireSlot, held])
  | some j => exact poolLaw_of_currentJob_ended offers messages law held (by simp [hireSlot, held]) rfl rfl rfl rfl

theorem flagDown_keeps_poolLaw (m n : Nat) (s : State) (offers : OfferLaw s) (messages : MessageLaw s) (law : PoolLaw s) :
    PoolLaw (flagDown m n s).1 := by
  unfold flagDown
  split
  · exact law
  · split
    · exact law
    · split
      · exact law
      · split
        · exact law
        · rename_i mode _ _ i _ _
          have frame := startTrip_frame mode n i.image s
          have hired := hireSlot_keeps_poolLaw _ (offerLaw_depends.keep frame (by decide) offers)
            (messageLaw_depends.keep frame (by decide) messages) (poolLaw_depends.keep frame (by decide) law)
          refine dutyChanged_keeps_poolLaw _ _ (poolLaw_of_texts hired rfl (textHolders_of_offers _ (fun o => ?_) rfl rfl rfl rfl))
          split <;> exact ⟨rfl, rfl⟩

/-- At a CLEAR the blocks of a next job that becomes current pass with it (R64, R84). -/
theorem leaveHired_keeps_poolLaw (s : State) (free : s.duty.current = none) (offers : OfferLaw s) (messages : MessageLaw s)
    (law : PoolLaw s) : PoolLaw (leaveHired s) := by
  by_cases moves : ∃ j, s.duty.signedOn = true ∧ s.duty.next = some j
  · obtain ⟨j, on, held⟩ := moves
    exact poolLaw_of_nextJob_moved offers messages law free held (by simp [leaveHired, movedBlocks, on, held])
      (by simp [leaveHired, DutyUnit.afterClear, on, held]) (by simp [leaveHired, DutyUnit.afterClear, on, held]) rfl rfl
  · have stays : movedBlocks s.duty = [] ∧ s.duty.afterClear.current = s.duty.current ∧ s.duty.afterClear.next = s.duty.next := by
      cases on : s.duty.signedOn <;> cases held : s.duty.next <;> simp_all [movedBlocks, DutyUnit.afterClear]
    obtain ⟨nothing, current, next⟩ := stays
    exact poolLaw_of_texts law (by simp [leaveHired, nothing, retagBlocks]) (by simp [textHolders, leaveHired, current, next])

theorem clear_keeps_poolLaw (s : State) (duty : DutyLaw s) (offers : OfferLaw s) (messages : MessageLaw s) (law : PoolLaw s) :
    PoolLaw (clear s).1 := by
  unfold clear
  split
  · exact law
  · rename_i t trip
    split
    · exact law
    · rename_i total _ _
      have free : s.duty.current = none := by
        have row := duty.1
        cases h : s.duty.state <;> simp_all [dutyRow]
      have frame : changesOnly [.resumeDue, .closed, .alarm, .totals, .radio, .tariff, .meter, .trip, .evalDue, .dist, .terminal] s
          (endTrip (activatePending (closeTrip t total s))) := by
        refine changesOnly_trans (changesOnly_mono (closeTrip_frame t total s) (by decide)) ?_
        exact changesOnly_trans (changesOnly_mono (activatePending_frame _) (by decide)) (changesOnly_mono (endTrip_frame _) (by decide))
      refine dutyChanged_keeps_poolLaw _ _ (leaveHired_keeps_poolLaw _ ?_ (offerLaw_depends.keep frame (by decide) offers)
        (messageLaw_depends.keep frame (by decide) messages) (poolLaw_depends.keep frame (by decide) law))
      rw [frame .duty (by decide), free]

theorem takeLevels_keeps_poolLaw (a b : Option Level) (s : State) (law : PoolLaw s) : PoolLaw (takeLevels a b s) := by
  unfold takeLevels
  simp only
  split
  · unfold takePress
    split
    · exact poolLaw_depends.keep (escalate_frame _) (by decide) law
    · refine poolLaw_depends.keep (noticeEmergency_frame _) (by decide) (poolLaw_depends.keep (beginMark_frame _) (by decide) ?_)
      refine recheck_keeps_poolLaw _ (poolLaw_depends.keep (enterEmergency_frame _) (by decide) ?_)
      exact poolLaw_depends.keep (cutOff_frame _) (by decide) law
  · exact law

theorem endOffer_keeps_poolLaw (o : Offer) (st : OfferState) (s : State) (law : PoolLaw s) : PoolLaw (endOffer o st s) := by
  unfold endOffer
  refine setOffer_keeps_poolLaw _ _ _ ?_
  split <;> exact law

theorem takeWithdraw_keeps_poolLaw (n : Nat) (s : State) (offers : OfferLaw s) (messages : MessageLaw s) (law : PoolLaw s) :
    PoolLaw (takeWithdraw n s) := by
  have cancels : PoolLaw (withdrawJob n s) := by
    unfold withdrawJob
    split
    · exact cancelJob_keeps_poolLaw n s offers messages law
    · exact law
  unfold takeWithdraw
  split
  · split
    · exact cancels
    · exact endOffer_keeps_poolLaw _ _ s law
  · exact cancels

theorem takeLost_keeps_poolLaw (n : Nat) (s : State) (law : PoolLaw s) : PoolLaw (takeLost n s) := by
  unfold takeLost
  split
  · split
    · exact law
    · exact endOffer_keeps_poolLaw _ _ s law
  · exact law

theorem takeAward_keeps_poolLaw (n : Nat) (s : State) (duty : DutyLaw s) (offers : OfferLaw s) (messages : MessageLaw s) (law : PoolLaw s) :
    PoolLaw (takeAward n s) := by
  unfold takeAward
  split
  · exact law
  · split
    · split
      · exact placeJob_keeps_poolLaw duty offers messages law (findOffer_mem ‹_›)
      · exact law
    · exact law

theorem accept_keeps_poolLaw (n : Nat) (s : State) (law : PoolLaw s) : PoolLaw (accept n s).1 := by
  unfold accept
  split
  · exact law
  · split
    · exact law
    · split
      · exact law
      · split
        · have taken := setOffer_keeps_poolLaw n (.accepting (s.now + 30000)) { s with radio := s.radio.createReserved (.accept n) } law
          simp only [done, takeAccept]
          split
          · refine poolLaw_of_texts taken rfl (textHolders_of_offers _ (fun o => ?_) rfl rfl rfl rfl)
            split
            · split <;> exact ⟨rfl, rfl⟩
            · exact ⟨rfl, rfl⟩
          · exact taken
        · exact law
    · exact law

theorem acceptAcknowledged_keeps_poolLaw (n : Nat) (s : State) (law : PoolLaw s) : PoolLaw (acceptAcknowledged n s) := by
  unfold acceptAcknowledged
  split
  · split
    · exact setOffer_keeps_poolLaw _ _ s law
    · exact law
  · exact law

theorem ownerAcknowledged_keeps_poolLaw (e : Entry) (s : State) (offers : OfferLaw s) (messages : MessageLaw s) (law : PoolLaw s) :
    PoolLaw (ownerAcknowledged e s) := by
  unfold ownerAcknowledged
  split
  case h_1 => exact law
  case h_2 => exact acceptAcknowledged_keeps_poolLaw _ s law
  case h_4 => exact poolLaw_depends.keep (fareTotalAcknowledged_frame s) (by decide) law
  case h_6 =>
    unfold statusAcknowledged
    split <;> exact law
  case h_8 => exact queueWaiting_keeps_poolLaw _ (resolveOutbound_keeps_poolLaw _ _ s offers messages law)
  all_goals exact queueWaiting_keeps_poolLaw s law

theorem ownerFailed_keeps_poolLaw (e : Entry) (s : State) (offers : OfferLaw s) (messages : MessageLaw s) (law : PoolLaw s) :
    PoolLaw (ownerFailed e s) := by
  unfold ownerFailed
  split
  case h_3 => exact queueWaiting_keeps_poolLaw _ law
  case h_8 => exact queueWaiting_keeps_poolLaw _ (resolveOutbound_keeps_poolLaw _ _ s offers messages law)
  case h_5 | h_7 => exact queueWaiting_keeps_poolLaw s law
  all_goals exact law

/-! ### The owners that change states alone, or let one text go -/

theorem signOn_keeps_poolLaw (s : State) (law : PoolLaw s) : PoolLaw (signOn s).1 := by
  unfold signOn
  split_ifs
  · exact law
  · exact law
  · exact dutyChanged_keeps_poolLaw _ _ law

theorem signOff_keeps_poolLaw (s : State) (law : PoolLaw s) : PoolLaw (signOff s).1 := by
  unfold signOff
  split_ifs
  · exact law
  · exact law
  · exact dutyChanged_keeps_poolLaw _ _ law

theorem soonClear_keeps_poolLaw (n : Nat) (s : State) (law : PoolLaw s) : PoolLaw (soonClear n s).1 := by
  unfold soonClear takeSoonClear
  split_ifs
  · exact dutyChanged_keeps_poolLaw _ _ law
  · exact law
  · exact law
  · exact law

theorem cancelClear_keeps_poolLaw (s : State) (law : PoolLaw s) : PoolLaw (cancelClear s).1 := by
  unfold cancelClear
  split_ifs
  · exact dutyChanged_keeps_poolLaw _ _ law
  · exact law

theorem decline_keeps_poolLaw (n : Nat) (s : State) (law : PoolLaw s) : PoolLaw (decline n s).1 := by
  unfold decline
  split
  · exact law
  · split
    · exact law
    · exact setOffer_keeps_poolLaw n _ s law
    · exact law

theorem dismiss_keeps_poolLaw (n : Nat) (s : State) (offers : OfferLaw s) (messages : MessageLaw s) (law : PoolLaw s) :
    PoolLaw (dismiss n s).1 := by
  unfold dismiss
  split
  · exact law
  · split
    · exact removeOffer_keeps_poolLaw offers messages law (findOffer_mem ‹_›)
    · exact law

theorem takeStatusInterval_keeps_poolLaw (s : State) (law : PoolLaw s) : PoolLaw (takeStatusInterval s) := by
  unfold takeStatusInterval
  split <;> exact law

theorem takePresenceExpiry_keeps_poolLaw (s : State) (law : PoolLaw s) : PoolLaw (takePresenceExpiry s) := by
  unfold takePresenceExpiry
  split
  · exact law
  · split
    · exact dutyChanged_keeps_poolLaw _ _ law
    · exact law

theorem takeDeadline_keeps_poolLaw (n : Nat) (s : State) (law : PoolLaw s) : PoolLaw (takeDeadline n s) := by
  unfold takeDeadline
  split
  · split
    · exact setOffer_keeps_poolLaw _ _ (reach _ s) law
    · exact law
  · exact law

theorem takeAwardExpiry_keeps_poolLaw (n : Nat) (s : State) (law : PoolLaw s) : PoolLaw (takeAwardExpiry n s) := by
  unfold takeAwardExpiry
  split
  · exact setOffer_keeps_poolLaw _ _ (removeAccept (reach _ s)) law
  · exact law

/-! ## Every step -/

/-- The law of the pool with the laws of the holders' owners. -/
def Accounted (s : State) : Prop := DutyLaw s ∧ OfferLaw s ∧ MessageLaw s ∧ PoolLaw s

theorem accounted_depends : DependsOn [.duty, .trip, .offers, .messages, .pool] Accounted := by
  rintro s t same ⟨duty, offers, messages, pool⟩
  refine ⟨dutyLaw_depends s t (fun f hf => same f ?_) duty, offerLaw_depends s t (fun f hf => same f ?_) offers,
    messageLaw_depends s t (fun f hf => same f ?_) messages, poolLaw_depends s t (fun f hf => same f ?_) pool⟩ <;>
  · revert hf
    cases f <;> decide

/-- The laws that the accounting rests on are kept (O7 to O9), so an owner that keeps the law of the pool under them keeps them all. -/
theorem accounted_of_pool {s t : State} (h : Accounted s) (duty : DutyLaw s → DutyLaw t) (offers : OfferLaw s → OfferLaw t)
    (messages : MessageLaw s → MessageLaw t) (pool : DutyLaw s → OfferLaw s → MessageLaw s → PoolLaw s → PoolLaw t) : Accounted t := by
  obtain ⟨hd, ho, hm, hp⟩ := h
  exact ⟨duty hd, offers ho, messages hm, pool hd ho hm hp⟩

/-- Every block is free after a start (R86), and no one holds a text. -/
theorem poolLaw_reset {s : State} (pool : s.pool = poolFree) (offers : s.offers = OfferTable.reset) (messages : s.messages = MessageStore.reset)
    (current : s.duty.current = none) (next : s.duty.next = none) : PoolLaw s := by
  have none : textHolders s = [] := by simp [textHolders, offers, messages, current, next, OfferTable.reset, MessageStore.reset]
  rw [poolLaw_iff, none, pool]
  refine ⟨rfl, by simp, fun n hn o ho => ?_⟩
  simp [blockOwner, poolFree, hn] at ho

theorem goDown_accounted (s : State) : Accounted (goDown s) :=
  ⟨goDown_dutyLaw s, offerLaw_reset rfl, messageLaw_reset rfl, poolLaw_reset rfl rfl rfl rfl rfl⟩

theorem warmStart_accounted (s : State) : Accounted (warmStart s) := by
  have unit : (warmStart s).duty = dutyAtStart s.trip := by
    unfold warmStart warmSteps
    rw [restartBeacon_frame _ .duty (by decide), ensureFareTotal_frame _ .duty (by decide), continueEmergency_frame _ .duty (by decide),
      continueTrip_frame _ .duty (by decide), checkPending_frame _ .duty (by decide), checkActive_frame _ .duty (by decide)]
    rfl
  have pool : (warmStart s).pool = poolFree := by
    unfold warmStart warmSteps
    rw [restartBeacon_frame _ .pool (by decide), ensureFareTotal_frame _ .pool (by decide), continueEmergency_frame _ .pool (by decide),
      continueTrip_frame _ .pool (by decide), checkPending_frame _ .pool (by decide), checkActive_frame _ .pool (by decide)]
    rfl
  exact ⟨warmStart_dutyLaw s, offerLaw_reset (warmStart_offers s), messageLaw_reset (warmStart_messages s),
    poolLaw_reset pool (warmStart_offers s) (warmStart_messages s) (by rw [unit]; rfl) (by rw [unit]; rfl)⟩

theorem ownerAcknowledged_keeps_accounted (e : Entry) (s : State) (h : Accounted s) : Accounted (ownerAcknowledged e s) :=
  accounted_of_pool h (ownerAcknowledged_keeps_dutyLaw e s) (ownerAcknowledged_keeps_offerLaw e s) (ownerAcknowledged_keeps_messageLaw e s)
    (fun _ => ownerAcknowledged_keeps_poolLaw e s)

theorem ownerFailed_keeps_accounted (e : Entry) (s : State) (h : Accounted s) : Accounted (ownerFailed e s) :=
  accounted_of_pool h (ownerFailed_keeps_dutyLaw e s) (ownerFailed_keeps_offerLaw e s) (ownerFailed_keeps_messageLaw e s)
    (fun _ => ownerFailed_keeps_poolLaw e s)

/-- What the accounting takes of each owner that touches it. -/
theorem accounted_beyond : KeptBeyond [.duty, .trip, .offers, .messages, .pool] Accounted :=
  have D := dutyLaw_beyond.keptByOwners dutyLaw_depends
  have O := offerLaw_beyond.keptByOwners offerLaw_depends
  have M := messageLaw_beyond.keptByOwners messageLaw_depends
  { sign := .inr fun s law => accounted_of_pool law (D.sign s) (O.sign s) (M.sign s) (fun _ _ _ => terminalSign_keeps_poolLaw s)
    evaluation := .inr fun s law up => accounted_of_pool law (fun l => D.evaluation s l up) (fun l => O.evaluation s l up) (fun l => M.evaluation s l up)
      (fun _ _ _ => poolLaw_depends.keep (takeEvaluation_frame s) (by decide))
    flagDown := .inr fun m n s law => accounted_of_pool law (D.flagDown m n s) (O.flagDown m n s) (M.flagDown m n s)
      (fun _ => flagDown_keeps_poolLaw m n s)
    stop := .inr fun s law => accounted_of_pool law (D.stop s) (O.stop s) (M.stop s)
      (fun _ _ _ => poolLaw_depends.keep (stop_frame s) (by decide))
    resume := .inr fun s law => accounted_of_pool law (D.resume s) (O.resume s) (M.resume s)
      (fun _ _ _ => poolLaw_depends.keep (resume_frame s) (by decide))
    clear := .inr fun s law => accounted_of_pool law (D.clear s) (O.clear s) (M.clear s) (clear_keeps_poolLaw s)
    addExtra := .inr fun n s law => accounted_of_pool law (D.addExtra n s) (O.addExtra n s) (M.addExtra n s)
      (fun _ _ _ => poolLaw_depends.keep (addExtra_frame n s) (by decide))
    signOn := .inr fun s law => accounted_of_pool law (D.signOn s) (O.signOn s) (M.signOn s) (fun _ _ _ => signOn_keeps_poolLaw s)
    signOff := .inr fun s law => accounted_of_pool law (D.signOff s) (O.signOff s) (M.signOff s) (fun _ _ _ => signOff_keeps_poolLaw s)
    soonClear := .inr fun n s law => accounted_of_pool law (D.soonClear n s) (O.soonClear n s) (M.soonClear n s)
      (fun _ _ _ => soonClear_keeps_poolLaw n s)
    cancelClear := .inr fun s law => accounted_of_pool law (D.cancelClear s) (O.cancelClear s) (M.cancelClear s)
      (fun _ _ _ => cancelClear_keeps_poolLaw s)
    noShow := .inr fun s law => accounted_of_pool law (D.noShow s) (O.noShow s) (M.noShow s) (fun _ => noShow_keeps_poolLaw s)
    setZones := .inr fun n s law => accounted_of_pool law (D.setZones n s) (O.setZones n s) (M.setZones n s)
      (fun _ _ _ pool => by unfold setZones; split <;> exact pool)
    setOfferMode := .inr fun n s law => accounted_of_pool law (D.setOfferMode n s) (O.setOfferMode n s) (M.setOfferMode n s)
      (fun _ _ _ pool => by unfold setOfferMode; split <;> exact pool)
    accept := .inr fun n s law => accounted_of_pool law (D.accept n s) (O.accept n s) (M.accept n s) (fun _ _ _ => accept_keeps_poolLaw n s)
    decline := .inr fun n s law => accounted_of_pool law (D.decline n s) (O.decline n s) (M.decline n s)
      (fun _ _ _ => decline_keeps_poolLaw n s)
    dismiss := .inr fun n s law => accounted_of_pool law (D.dismiss n s) (O.dismiss n s) (M.dismiss n s)
      (fun _ => dismiss_keeps_poolLaw n s)
    markRead := .inr fun n s law => accounted_of_pool law (D.markRead n s) (O.markRead n s) (M.markRead n s)
      (fun _ _ _ => markRead_keeps_poolLaw n s)
    delete := .inr fun n s law => accounted_of_pool law (D.delete n s) (O.delete n s) (M.delete n s) (fun _ => delete_keeps_poolLaw n s)
    reply := .inr fun n c x s law => accounted_of_pool law (D.reply n c x s) (O.reply n c x s) (M.reply n c x s)
      (fun _ _ => reply_keeps_poolLaw n c x s)
    sendMessage := .inr fun c x s law => accounted_of_pool law (D.sendMessage c x s) (O.sendMessage c x s) (M.sendMessage c x s)
      (fun _ _ => sendMessage_keeps_poolLaw none c x s)
    dismissOutbound := .inr fun n s law => accounted_of_pool law (D.dismissOutbound n s) (O.dismissOutbound n s) (M.dismissOutbound n s)
      (fun _ _ => dismissOutbound_keeps_poolLaw n s)
    offer := .inr fun a o s law numbered => accounted_of_pool law (fun l => D.offer a o s l numbered) (fun l => O.offer a o s l numbered) (fun l => M.offer a o s l numbered)
      (fun _ => takeOffer_keeps_poolLaw a o s)
    award := .inr fun n s law => accounted_of_pool law (D.award n s) (O.award n s) (M.award n s) (takeAward_keeps_poolLaw n s)
    lost := .inr fun n s law => accounted_of_pool law (D.lost n s) (O.lost n s) (M.lost n s) (fun _ _ _ => takeLost_keeps_poolLaw n s)
    withdraw := .inr fun n s law => accounted_of_pool law (D.withdraw n s) (O.withdraw n s) (M.withdraw n s)
      (fun _ => takeWithdraw_keeps_poolLaw n s)
    jobCancel := .inr fun n s law => accounted_of_pool law (D.jobCancel n s) (O.jobCancel n s) (M.jobCancel n s)
      (fun _ => cancelJob_keeps_poolLaw n s)
    poll := .inr fun s law => accounted_of_pool law (D.poll s) (O.poll s) (M.poll s) (fun _ _ _ pool => pool)
    message := .inr fun a n c x s number law => accounted_of_pool law (D.message a n c x s number) (O.message a n c x s number) (M.message a n c x s number)
      (fun _ _ _ => takeMessage_keeps_poolLaw a n c x s)
    levels := .inr fun a b s law up => accounted_of_pool law (fun l => D.levels a b s l up) (fun l => O.levels a b s l up) (fun l => M.levels a b s l up)
      (fun _ _ _ => takeLevels_keeps_poolLaw a b s)
    statusInterval := .inr fun s law => accounted_of_pool law (D.statusInterval s) (O.statusInterval s) (M.statusInterval s)
      (fun _ _ _ => takeStatusInterval_keeps_poolLaw s)
    presenceExpiry := .inr fun s law => accounted_of_pool law (D.presenceExpiry s) (O.presenceExpiry s) (M.presenceExpiry s)
      (fun _ _ _ => takePresenceExpiry_keeps_poolLaw s)
    deadline := .inr fun n s law => accounted_of_pool law (D.deadline n s) (O.deadline n s) (M.deadline n s)
      (fun _ _ _ => takeDeadline_keeps_poolLaw n s)
    awardExpiry := .inr fun n s law => accounted_of_pool law (D.awardExpiry n s) (O.awardExpiry n s) (M.awardExpiry n s)
      (fun _ _ _ => takeAwardExpiry_keeps_poolLaw n s)
    head := .inr fun h s law _ _ =>
      accounted_depends.takeHead (by decide) ownerFailed_keeps_accounted ownerAcknowledged_keeps_accounted h s law
    retryLimit := .inr (accounted_depends.takeRetryLimit (by decide) ownerFailed_keeps_accounted)
    down := fun s _ => goDown_accounted s
    abandoned := fun _ s _ => goDown_accounted _
    cold := fun s => ⟨dutyLaw_atStart rfl, offerLaw_reset rfl, messageLaw_reset rfl, poolLaw_reset rfl rfl rfl rfl rfl⟩
    warm := fun s _ => warmStart_accounted s }

/-- Settles O10: the accounting of the pool is kept by every owner, together with the laws it rests on. -/
theorem poolLawIsKept : Obligations.PoolLawIsKept := fun s t duty offers messages pool stepped => by
  obtain ⟨_, _, _, kept⟩ := keeps_of_owners (accounted_beyond.keptByOwners accounted_depends) s t ⟨duty, offers, messages, pool⟩ stepped
  exact kept

end Sys2Proof.Machine
end

section
/-! PROOFS. Closed trips (03): how merging makes room (R51 to R53, R57), and the law of the list (R51, R53 to R55, R58), which every step keeps. -/

namespace Sys2Proof.Machine

open Sys2Proof

/-! ## The entry that the FARE TOTAL carries (R57) -/

/-- A kind is held exactly when the queue has an entry of it. -/
theorem Radio.holds_iff (k : Kind) (r : Radio) : r.holds k = true ↔ ∃ e ∈ r.queue, e.kind = k := by simp [Radio.holds]

/-- The FARE TOTAL that is queued carries the first unreported entry. -/
theorem carriedIndex_of_queued {s : State} (queued : ∃ e ∈ s.radio.queue, e.kind = .fareTotal) {before after : List ClosedTrip}
    {x : ClosedTrip} (h : s.closed = before ++ x :: after) (reported : ∀ y ∈ before, y.reported = true) (first : x.reported = false) :
    carriedIndex s = some before.length := by
  rw [carriedIndex, if_pos ((Radio.holds_iff _ _).mpr queued), h, List.findIdx?_append]
  have none : before.findIdx? (fun c => !c.reported) = none := by simpa using reported
  simp [none, List.findIdx?_cons, first]

/-! ## The two candidates (R53) -/

/-- Counting over the positions of a list is counting over the list. -/
theorem countP_range_getElem? {α : Type} (p : α → Bool) (l : List α) :
    (List.range l.length).countP (fun i => (l[i]?.map p).getD false) = l.countP p := by
  induction l using List.reverseRecOn with
  | nil => rfl
  | append_singleton l x ih =>
    rw [List.length_append, List.length_singleton, List.range_succ, List.countP_append, List.countP_append, ← ih]
    congr 1
    · refine List.countP_congr fun i hi => ?_
      rw [List.getElem?_append_left (List.mem_range.mp hi)]
    · simp

/-- Of eight entries of which one is pinned and one carried, two at least are candidates. -/
theorem two_mergeCandidates {closed : List ClosedTrip} (full : closed.length = 8) (pins : closed.countP ClosedTrip.pinned ≤ 1)
    (carried : Option Nat) : 2 ≤ (mergeCandidates carried closed).length := by
  have unpinned := countP_range_getElem? (fun c : ClosedTrip => !c.pinned) closed
  have total := List.length_eq_countP_add_countP ClosedTrip.pinned (l := closed)
  have one : (List.range closed.length).countP (fun i => decide (some i = carried)) ≤ 1 := by
    cases carried with
    | none => simp
    | some c =>
      calc _ = (List.range closed.length).count c := by rw [List.count_eq_countP]; exact List.countP_congr (by simp)
        _ ≤ 1 := List.nodup_iff_count_le_one.mp List.nodup_range c
  have split : (List.range closed.length).countP (fun i => (closed[i]?.map (fun c => !c.pinned)).getD false) ≤
      (mergeCandidates carried closed).length + (List.range closed.length).countP (fun i => decide (some i = carried)) := by
    rw [mergeCandidates, ← List.countP_eq_length_filter]
    induction List.range closed.length with
    | nil => simp
    | cons i is ih =>
      simp only [List.countP_cons, ne_eq, decide_not] at ih ⊢
      by_cases h : some i = carried <;> by_cases free : (closed[i]?.map (fun c => !c.pinned)).getD false = true <;> simp [h, free] <;> omega
  have other : closed.countP (fun c => !c.pinned) = closed.countP (fun c => decide ¬c.pinned = true) := by
    congr 1
    funext c
    cases c.pinned <;> rfl
  omega

/-- A list falls apart at each of its positions. -/
theorem exists_split_of_getElem? {α : Type} {l : List α} {i : Nat} {a : α} (h : l[i]? = some a) : ∃ b c, l = b ++ a :: c ∧ b.length = i := by
  obtain ⟨hi, rfl⟩ := List.getElem?_eq_some_iff.mp h
  exact ⟨l.take i, l.drop (i + 1), by simp, by simp; omega⟩

/-- From a full list the oldest two candidates are folded at the place of the older. -/
theorem mergeOldest_of_full {closed : List ClosedTrip} (full : closed.length = 8) (pins : closed.countP ClosedTrip.pinned ≤ 1)
    (carried : Option Nat) : ∃ before a between b after, closed = before ++ a :: between ++ b :: after ∧
      a.pinned = false ∧ carried ≠ some before.length ∧ b.pinned = false ∧ carried ≠ some (before.length + 1 + between.length) ∧
      (∀ k x, k < before.length + 1 + between.length → k ≠ before.length → closed[k]? = some x → x.pinned = true ∨ carried = some k) ∧
      mergeOldest carried closed = before ++ mergeClosed a b :: between ++ after := by
  have two := two_mergeCandidates full pins carried
  have mem : ∀ k, k ∈ mergeCandidates carried closed ↔ ∃ x, closed[k]? = some x ∧ x.pinned = false ∧ carried ≠ some k := by
    intro k
    simp only [mergeCandidates, List.mem_filter, List.mem_range, Bool.and_eq_true, decide_eq_true_eq]
    constructor
    · rintro ⟨hk, free, other⟩
      exact ⟨closed[k], by simp [hk], by simpa [hk] using free, fun h => other h.symm⟩
    · rintro ⟨x, hx, free, other⟩
      exact ⟨(List.getElem?_eq_some_iff.mp hx).1, by simp [hx, free], fun h => other h.symm⟩
  have sorted : (mergeCandidates carried closed).Pairwise (· < ·) := List.pairwise_lt_range.filter _
  unfold mergeOldest
  match hc : mergeCandidates carried closed, two with
  | i :: j :: rest, _ =>
    rw [hc] at mem sorted
    obtain ⟨a, ha, freeA, otherA⟩ := (mem i).mp (by simp)
    obtain ⟨b, hb, freeB, otherB⟩ := (mem j).mp (by simp)
    have lt : i < j := by simp only [List.pairwise_cons, List.mem_cons, forall_eq_or_imp] at sorted; exact sorted.1.1
    obtain ⟨before, tail, rfl, rfl⟩ := exists_split_of_getElem? ha
    obtain ⟨d, rfl⟩ : ∃ d, j = before.length + 1 + d := ⟨j - before.length - 1, by omega⟩
    have hd : tail[d]? = some b := by
      rw [List.getElem?_append_right (by omega)] at hb
      rw [← hb, show before.length + 1 + d - before.length = d + 1 by omega, List.getElem?_cons_succ]
    obtain ⟨between, after, rfl, rfl⟩ := exists_split_of_getElem? hd
    refine ⟨before, a, between, b, after, by simp, freeA, otherA, freeB, otherB, fun k x hk other hx => ?_, ?_⟩
    · by_contra neither
      simp only [not_or, Bool.not_eq_true] at neither
      have cand := (mem k).mpr ⟨x, hx, neither.1, neither.2⟩
      simp only [List.mem_cons, other, false_or] at cand
      rcases cand with here | later
      · omega
      · simp only [List.pairwise_cons] at sorted
        have := sorted.2.1 k later
        omega
    · simp only [ha, hb]
      rw [List.set_append_right _ _ (le_refl _), Nat.sub_self, List.set_cons_zero, List.eraseIdx_append_of_length_le (by omega),
        show before.length + 1 + between.length - before.length = between.length + 1 by omega, List.eraseIdx_cons_succ,
        List.eraseIdx_append_of_length_le (le_refl _), Nat.sub_self, List.eraseIdx_cons_zero]
      simp

/-- Merging keeps a sum that stays within the bound of an entry. -/
theorem sum_mergeOldest (f : ClosedTrip → Nat) (bound : Nat) (folds : ∀ a b, f (mergeClosed a b) = satAdd bound (f a) (f b))
    {closed : List ClosedTrip} (full : closed.length = 8) (pins : closed.countP ClosedTrip.pinned ≤ 1) (carried : Option Nat)
    (within : (closed.map f).sum ≤ bound) : ((mergeOldest carried closed).map f).sum = (closed.map f).sum := by
  obtain ⟨before, a, between, b, after, rfl, -, -, -, -, -, merged⟩ := mergeOldest_of_full full pins carried
  rw [merged]
  simp only [List.map_append, List.map_cons, List.sum_append, List.sum_cons, folds, satAdd] at within ⊢
  omega

/-- The list with the new entry keeps such a sum, and has the new amount besides. -/
theorem sum_appendClosed (f : ClosedTrip → Nat) (bound : Nat) (folds : ∀ a b, f (mergeClosed a b) = satAdd bound (f a) (f b))
    {closed : List ClosedTrip} (few : closed.length ≤ 8) (pins : closed.countP ClosedTrip.pinned ≤ 1) (carried : Option Nat) (c : ClosedTrip)
    (within : (closed.map f).sum ≤ bound) : ((appendClosed carried c closed).map f).sum = (closed.map f).sum + f c := by
  unfold appendClosed
  split
  · simp
  · have full : closed.length = 8 := le_antisymm few (not_lt.mp ‹_›)
    simp [sum_mergeOldest f bound folds full pins carried within]

/-- Settles O29: the sums by folding, the places by the candidates' order. -/
theorem mergingLosesNoAmount : Obligations.MergingLosesNoAmount := by
  refine ⟨fun s => ⟨fun none => ?_, fun queued before x after h => carriedIndex_of_queued queued h⟩, fun carried c closed few pins => ?_⟩
  · have absent : ¬s.radio.holds .fareTotal = true := by simpa [Radio.holds_iff] using none
    rw [carriedIndex, if_neg absent]
  refine ⟨?_, sum_appendClosed _ Config.countMax (fun _ _ => rfl) few pins carried c, sum_appendClosed _ Config.countMax (fun _ _ => rfl) few pins carried c,
    sum_appendClosed _ Config.countMax (fun _ _ => rfl) few pins carried c, sum_appendClosed _ 255 (fun _ _ => rfl) few pins carried c,
    fun short => ?_, fun full => ?_⟩
  · unfold appendClosed
    split
    · simpa using by omega
    · have full : closed.length = 8 := le_antisymm few (not_lt.mp ‹_›)
      obtain ⟨before, a, between, b, after, rfl, -, -, -, -, -, merged⟩ := mergeOldest_of_full full pins carried
      rw [merged]
      simp at few ⊢
      omega
  · rw [appendClosed, if_pos short]
  · obtain ⟨before, a, between, b, after, split, freeA, otherA, freeB, otherB, older, merged⟩ := mergeOldest_of_full full pins carried
    refine ⟨before, a, between, b, after, split, freeA, otherA, freeB, otherB, older, ?_⟩
    rw [appendClosed, if_neg (by simp [full]), merged]
    rfl

end Sys2Proof.Machine
end

section
/-! PROOFS. The law of the closed-trip list (R51, R54, R55, R58) is kept by every step. -/

namespace Sys2Proof.Machine

open Sys2Proof

/-! ## The Alarm Unit after each of its operations (R127 to R136) -/

@[simp] theorem noticeEmergency_alarm (s : State) : (noticeEmergency s).alarm = s.alarm := rfl

@[simp] theorem recheck_alarm (s : State) : (recheck s).alarm = s.alarm := rfl

@[simp] theorem cutOff_alarm (s : State) : (cutOff s).alarm = s.alarm := cutOff_frame s .alarm (by decide)

@[simp] theorem makeAlert_alarm (cancelled : Bool) (status : Nat) (s : State) : (makeAlert cancelled status s).alarm = s.alarm :=
  makeAlert_frame cancelled status s .alarm (by decide)

@[simp] theorem startCycle_alarm (start : Nat) (s : State) : (startCycle start s).alarm =
    { s.alarm with cycle := some (newCycle start s), record := { s.alarm.record with position := some (1, .mark), hold := s.alarm.record.hold - 1 } } :=
  rfl

@[simp] theorem burst_alarm (c : BeaconCycle) (s : State) : (burst c s).alarm =
    { s.alarm with cycle := some c.advance, record := { s.alarm.record with position := some c.positionAfter } } := by
  unfold burst
  cases c.held <;> simp

@[simp] theorem beginMark_alarm (s : State) : (beginMark s).alarm =
    { s.alarm with
      cycle := some (newCycle s.now s).advance
      record := { s.alarm.record with position := some (newCycle s.now s).positionAfter, hold := s.alarm.record.hold - 1 } } := by
  simp [beginMark]

@[simp] theorem enterEmergency_alarm (s : State) : (enterEmergency s).alarm =
    { s.alarm with
      record := { s.alarm.record with
        state := .alerting, presses := 1, startTime := some s.tariff.clock, cancelOpen := true, beaconSet := .urgent, hold := 0
        pinIntent := s.alarm.record.pinIntent || s.trip.isSome }
      cancelDue := some (s.now + 20000)
      saved := some s.radio.levels } := rfl

/-- The state and the pin intent, of the record that an emergency, a further press and a change of the beacon set leave. -/
@[simp] theorem beginEmergency_state (s : State) : (beginEmergency s).alarm.record.state = .alerting := by simp [beginEmergency]

theorem beginEmergency_pinIntent (s : State) :
    (beginEmergency s).alarm.record.pinIntent = (s.alarm.record.pinIntent || s.trip.isSome) := by
  simp [beginEmergency, show (cutOff s).trip = s.trip from cutOff_frame s .trip (by decide)]

/-- An emergency marks the trip in progress (R48). -/
theorem beginEmergency_trip (s : State) : (beginEmergency s).trip = s.trip.map (fun t => { t with emergency := true }) := by
  unfold beginEmergency
  rw [noticeEmergency_frame _ .trip (by decide), beginMark_frame _ .trip (by decide), recheck_frame _ .trip (by decide)]
  simp only [enterEmergency]
  rw [cutOff_frame s .trip (by decide)]

@[simp] theorem escalate_state (s : State) : (escalate s).alarm.record.state = .alerting := by
  unfold escalate
  split <;> simp [changeSet, escalateRecord]

@[simp] theorem escalate_pinIntent (s : State) : (escalate s).alarm.record.pinIntent = s.alarm.record.pinIntent := by
  unfold escalate
  split <;> simp [changeSet, escalateRecord]

@[simp] theorem setLine_record (l : AlarmLine) (v : LineState) (s : State) : (setLine l v s).alarm.record = s.alarm.record := by
  cases l <;> rfl

/-- A press is taken as the beginning of an emergency or as its escalation, after the latch (R125, R127, R130). -/
theorem takePress_cases (s : State) :
    (s.alarm.record.state ≠ .normal ∧ takePress s = escalate { s with alarm := { s.alarm with latch := false } }) ∨
    (s.alarm.record.state = .normal ∧ takePress s = beginEmergency { s with alarm := { s.alarm with latch := false } }) := by
  unfold takePress inEmergency
  by_cases h : s.alarm.record.state = .normal <;> simp [h]

/-! ## The law over the list -/

/-- What the law says of the entries alone. -/
def ClosedLawful (closed : List ClosedTrip) : Prop :=
  closed.length ≤ 8 ∧ closed.countP ClosedTrip.pinned ≤ 1 ∧
  ∀ c ∈ closed, 1 ≤ c.count ∧ c.count ≤ 255 ∧ (c.reported = true → c.pinned = true)

/-- No entry is pinned. -/
def NonePinned (closed : List ClosedTrip) : Prop := ∀ c ∈ closed, c.pinned = false

theorem closedLaw_iff (s : State) : ClosedLaw s ↔ ClosedLawful s.closed ∧
    (s.alarm.record.state = .normal → s.alarm.record.pinIntent = false ∧ NonePinned s.closed) ∧
    (s.alarm.record.pinIntent = true → s.trip.isSome ∧ NonePinned s.closed) := by
  unfold ClosedLaw ClosedLawful NonePinned
  tauto

/-- A change that leaves the list, the intent and the emergency as they are, and a trip in progress, keeps the law. -/
theorem closedLaw_of_same {s t : State} (law : ClosedLaw s) (closed : t.closed = s.closed)
    (normal : t.alarm.record.state = .normal → s.alarm.record.state = .normal) (intent : t.alarm.record.pinIntent = s.alarm.record.pinIntent)
    (trip : s.trip.isSome → t.trip.isSome) : ClosedLaw t := by
  rw [closedLaw_iff] at *
  obtain ⟨list, quiet, intended⟩ := law
  rw [closed, intent]
  exact ⟨list, fun h => quiet (normal h), fun h => ⟨trip (intended h).1, (intended h).2⟩⟩

theorem closedLaw_depends : DependsOn [.closed, .alarm, .trip] ClosedLaw := fun s t same law => by
  have alarm : t.alarm = s.alarm := same .alarm (by simp)
  have trip : t.trip = s.trip := same .trip (by simp)
  exact closedLaw_of_same law (same .closed (by simp)) (by simp [alarm]) (by simp [alarm]) (by simp [trip])

section
variable {closed : List ClosedTrip}

/-- A list without pinned entries counts none. -/
theorem NonePinned.countP (h : NonePinned closed) : closed.countP ClosedTrip.pinned = 0 := by
  simpa [List.countP_eq_zero, NonePinned] using h

theorem nonePinned_of_countP (h : closed.countP ClosedTrip.pinned = 0) : NonePinned closed := by
  simpa [List.countP_eq_zero, NonePinned] using h

/-- Merging keeps the law of the entries and the pins, and leaves room (R53). -/
theorem mergeOldest_lawful (law : ClosedLawful closed) (full : closed.length = 8) (carried : Option Nat) :
    ClosedLawful (mergeOldest carried closed) ∧ (mergeOldest carried closed).length = 7 ∧
      (mergeOldest carried closed).countP ClosedTrip.pinned = closed.countP ClosedTrip.pinned := by
  obtain ⟨-, pins, each⟩ := law
  obtain ⟨before, a, between, b, after, rfl, freeA, -, freeB, -, -, merged⟩ := mergeOldest_of_full full pins carried
  have folded : ¬(mergeClosed a b).pinned = true := by simp [mergeClosed]
  have same : (before ++ mergeClosed a b :: between ++ after).countP ClosedTrip.pinned =
      (before ++ a :: between ++ b :: after).countP ClosedTrip.pinned := by
    simp [List.countP_append, freeA, freeB, folded]
  have length : (before ++ mergeClosed a b :: between ++ after).length = 7 := by
    simp at full ⊢
    omega
  rw [merged]
  refine ⟨⟨by omega, by omega, fun c hc => ?_⟩, length, same⟩
  simp only [List.mem_append, List.mem_cons, or_assoc] at hc each
  rcases hc with hc | rfl | hc | hc
  · exact each c (.inl hc)
  · have ha := each a (.inr (.inl rfl))
    have hb := each b (.inr (.inr (.inr (.inl rfl))))
    simp only [mergeClosed, satAdd]
    exact ⟨by omega, by omega, by simp⟩
  · exact each c (.inr (.inr (.inl hc)))
  · exact each c (.inr (.inr (.inr (.inr hc))))

/-- A new entry, unreported and of one trip, keeps the law; a pinned one while no other is (R52, R54). -/
theorem appendClosed_lawful (law : ClosedLawful closed) (carried : Option Nat) {c : ClosedTrip} (one : c.count = 1)
    (unreported : c.reported = false) (pin : c.pinned = true → NonePinned closed) :
    ClosedLawful (appendClosed carried c closed) ∧ (c.pinned = false → NonePinned closed → NonePinned (appendClosed carried c closed)) := by
  have appended : ∀ l : List ClosedTrip, ClosedLawful l → l.length < 8 → l.countP ClosedTrip.pinned = closed.countP ClosedTrip.pinned →
      ClosedLawful (l ++ [c]) ∧ (c.pinned = false → NonePinned closed → NonePinned (l ++ [c])) := by
    rintro l ⟨_, pins, each⟩ short same
    refine ⟨⟨by simp; omega, ?_, ?_⟩, fun free none => nonePinned_of_countP ?_⟩
    · cases h : c.pinned with
      | false => simpa [List.countP_append, h] using pins
      | true => simp [List.countP_append, h, same, (pin h).countP]
    · intro x hx
      rcases List.mem_append.mp hx with old | new
      · exact each x old
      · obtain rfl : x = c := by simpa using new
        exact ⟨by omega, by omega, by simp [unreported]⟩
    · simp [List.countP_append, free, same, none.countP]
  unfold appendClosed
  split
  · exact appended closed law ‹_› rfl
  · obtain ⟨merged, short, same⟩ := mergeOldest_lawful law (le_antisymm law.1 (not_lt.mp ‹_›)) carried
    exact appended _ merged (by omega) same

/-- Entries may leave, and lose their pin with their report, or their unsent flag. -/
theorem ClosedLawful.filterMap (law : ClosedLawful closed) (f : ClosedTrip → Option ClosedTrip)
    (keeps : ∀ c, ∀ x ∈ f c, x.count = c.count ∧ (x.pinned = true → c.pinned = true) ∧
      ((c.reported = true → c.pinned = true) → x.reported = true → x.pinned = true)) : ClosedLawful (closed.filterMap f) := by
  obtain ⟨room, pins, each⟩ := law
  refine ⟨le_trans (List.length_filterMap_le f closed) room, le_trans ?_ pins, fun x hx => ?_⟩
  · rw [List.countP_filterMap]
    refine List.countP_mono_left fun c _ h => ?_
    cases hf : f c with
    | none => simp [hf] at h
    | some x => exact (keeps c x hf).2.1 (by simpa [hf] using h)
  · obtain ⟨c, hc, hf⟩ := List.mem_filterMap.mp hx
    obtain ⟨count, -, report⟩ := keeps c x hf
    rw [count]
    exact ⟨(each c hc).1, (each c hc).2.1, report (each c hc).2.2⟩

/-- The release of the pin (R55) keeps the law and leaves none pinned. -/
theorem releasePin_lawful (law : ClosedLawful closed) : ClosedLawful (releasePin closed) ∧ NonePinned (releasePin closed) := by
  constructor
  · refine law.filterMap _ fun c x hx => ?_
    cases hp : c.pinned <;> cases hr : c.reported <;> simp_all
    subst hx
    simp_all
  · intro x hx
    obtain ⟨c, -, hc⟩ := List.mem_filterMap.mp hx
    cases hp : c.pinned <;> cases hr : c.reported <;> simp_all
    subst hc
    simp_all

/-- Entries that each stem from one of the list, with its count and its pin, and reported only if it was or if pinned. -/
def StemsFrom (closed left : List ClosedTrip) : Prop :=
  left.length ≤ closed.length ∧ left.countP ClosedTrip.pinned ≤ closed.countP ClosedTrip.pinned ∧
  ∀ x ∈ left, ∃ c ∈ closed, x.count = c.count ∧ x.pinned = c.pinned ∧ (x.reported = true → c.reported = true ∨ c.pinned = true)

theorem StemsFrom.lawful {left : List ClosedTrip} (stems : StemsFrom closed left) (law : ClosedLawful closed) : ClosedLawful left := by
  obtain ⟨room, pins, each⟩ := law
  obtain ⟨shorter, fewer, from_⟩ := stems
  refine ⟨by omega, by omega, fun x hx => ?_⟩
  obtain ⟨c, hc, count, pin, report⟩ := from_ x hx
  obtain ⟨least, most, pinned⟩ := each c hc
  rw [count, pin]
  exact ⟨least, most, fun h => (report h).elim pinned id⟩

theorem StemsFrom.nonePinned {left : List ClosedTrip} (stems : StemsFrom closed left) (none : NonePinned closed) : NonePinned left := by
  intro x hx
  obtain ⟨c, hc, -, pin, -⟩ := stems.2.2 x hx
  rw [pin]
  exact none c hc

/-- An entry may be put before both lists. -/
theorem StemsFrom.cons {left : List ClosedTrip} (c : ClosedTrip) (stems : StemsFrom closed left) : StemsFrom (c :: closed) (c :: left) := by
  obtain ⟨shorter, fewer, from_⟩ := stems
  refine ⟨by simpa using shorter, by simp only [List.countP_cons]; omega, fun x hx => ?_⟩
  rcases List.mem_cons.mp hx with rfl | hx
  · exact ⟨x, by simp, rfl, rfl, Or.inl⟩
  · obtain ⟨d, hd, h⟩ := from_ x hx
    exact ⟨d, by simp [hd], h⟩

/-- An entry may be changed but in its count and pin. -/
theorem StemsFrom.change {c d : ClosedTrip} (count : d.count = c.count) (pin : d.pinned = c.pinned)
    (report : d.reported = true → c.reported = true ∨ c.pinned = true) : StemsFrom (c :: closed) (d :: closed) := by
  refine ⟨by simp, by simp [List.countP_cons, pin], fun x hx => ?_⟩
  rcases List.mem_cons.mp hx with rfl | hx
  · exact ⟨c, by simp, count, pin, report⟩
  · exact ⟨x, by simp [hx], rfl, rfl, Or.inl⟩

theorem markSent_stems : ∀ l : List ClosedTrip, StemsFrom l (markSent l)
  | [] => ⟨le_rfl, le_rfl, by simp [markSent]⟩
  | c :: rest => by
    unfold markSent
    split
    · exact (markSent_stems rest).cons c
    · exact StemsFrom.change rfl rfl .inl

theorem reportCarried_stems : ∀ l : List ClosedTrip, StemsFrom l (reportCarried l)
  | [] => ⟨le_rfl, le_rfl, by simp [reportCarried]⟩
  | c :: rest => by
    unfold reportCarried
    split
    · exact (reportCarried_stems rest).cons c
    · split
      · exact StemsFrom.change rfl rfl fun _ => .inr ‹_›
      · refine ⟨by simp, by simp [List.countP_cons], fun x hx => ⟨x, by simp [hx], rfl, rfl, Or.inl⟩⟩

end

/-! ## The owners that touch it -/

/-- A change of the list to one that stems from it keeps the law. -/
theorem closedLaw_of_stems {s t : State} (law : ClosedLaw s) (stems : StemsFrom s.closed t.closed)
    (alarm : t.alarm = s.alarm) (trip : t.trip = s.trip) : ClosedLaw t := by
  rw [closedLaw_iff] at *
  obtain ⟨list, quiet, intended⟩ := law
  rw [alarm, trip]
  exact ⟨stems.lawful list, fun h => ⟨(quiet h).1, stems.nonePinned (quiet h).2⟩, fun h => ⟨(intended h).1, stems.nonePinned (intended h).2⟩⟩

theorem ensureFareTotal_keeps_closedLaw (s : State) (law : ClosedLaw s) : ClosedLaw (ensureFareTotal s) :=
  closedLaw_depends.keep (ensureFareTotal_frame s) (by decide) law

theorem fareTotalAcknowledged_keeps_closedLaw (s : State) (law : ClosedLaw s) : ClosedLaw (fareTotalAcknowledged s) := by
  unfold fareTotalAcknowledged
  split
  · exact law
  · exact ensureFareTotal_keeps_closedLaw _ (closedLaw_of_stems law (reportCarried_stems _) rfl rfl)

theorem ownerAcknowledged_keeps_closedLaw (e : Entry) (s : State) (law : ClosedLaw s) : ClosedLaw (ownerAcknowledged e s) := by
  unfold ownerAcknowledged
  split
  case h_1 => exact law
  case h_2 => exact closedLaw_depends.keep (acceptAcknowledged_frame _ s) (by decide) law
  case h_4 => exact fareTotalAcknowledged_keeps_closedLaw s law
  case h_6 => exact closedLaw_depends.keep (statusAcknowledged_frame _ s) (by decide) law
  case h_8 => exact closedLaw_depends.keep (queueWaiting_frame _) (by decide) (closedLaw_depends.keep (resolveOutbound_frame _ _ s) (by decide) law)
  all_goals exact closedLaw_depends.keep (queueWaiting_frame s) (by decide) law

theorem ownerFailed_keeps_closedLaw (e : Entry) (s : State) (law : ClosedLaw s) : ClosedLaw (ownerFailed e s) :=
  closedLaw_depends.keep (ownerFailed_frame e s) (by decide) law

/-- The list and the intent once a trip is closed: the intent has passed to the entry. -/
theorem closeTrip_keeps_closedLaw (t : Trip) (total : Nat) (s : State) (law : ClosedLaw s) : ClosedLaw (closeTrip t total s) := by
  unfold closeTrip
  refine ensureFareTotal_keeps_closedLaw _ ?_
  rw [closedLaw_iff] at *
  obtain ⟨list, quiet, intended⟩ := law
  obtain ⟨lawful, free⟩ := appendClosed_lawful list (carriedIndex s) (c := closedEntry t total s) rfl rfl (fun h => (intended h).2)
  exact ⟨lawful, fun h => ⟨rfl, free (quiet h).1 (quiet h).2⟩, nofun⟩

theorem closeTrip_pinIntent (t : Trip) (total : Nat) (s : State) : (closeTrip t total s).alarm.record.pinIntent = false := by
  unfold closeTrip
  rw [ensureFareTotal_frame _ .alarm (by decide)]

/-- CLEAR leaves the list and the Alarm Unit as the closing of the trip leaves them, and no trip (R44). -/
theorem takeClear_closed (t : Trip) (total : Nat) (s : State) : (takeClear t total s).closed = (closeTrip t total s).closed := by
  unfold takeClear
  rw [dutyChanged_frame _ _ .closed (by decide), leaveHired_frame _ .closed (by decide), endTrip_frame _ .closed (by decide),
    activatePending_frame _ .closed (by decide)]

theorem takeClear_alarm (t : Trip) (total : Nat) (s : State) : (takeClear t total s).alarm = (closeTrip t total s).alarm := by
  unfold takeClear
  rw [dutyChanged_frame _ _ .alarm (by decide), leaveHired_frame _ .alarm (by decide), endTrip_frame _ .alarm (by decide),
    activatePending_frame _ .alarm (by decide)]

theorem clear_keeps_closedLaw (s : State) (law : ClosedLaw s) : ClosedLaw (clear s).1 := by
  unfold clear
  split
  · exact law
  · rename_i t _
    split
    · exact law
    · rename_i total _ _
      have closed := closeTrip_keeps_closedLaw t total s law
      simp only [done]
      rw [closedLaw_iff] at *
      rw [takeClear_closed, takeClear_alarm, closeTrip_pinIntent] at *
      exact ⟨closed.1, fun h => ⟨rfl, (closed.2.1 h).2⟩, nofun⟩

theorem returnToNormal_keeps_closedLaw (s : State) (law : ClosedLaw s) : ClosedLaw (returnToNormal s) := by
  rw [closedLaw_iff] at *
  obtain ⟨lawful, none⟩ := releasePin_lawful law.1
  exact ⟨lawful, fun _ => ⟨rfl, none⟩, nofun⟩

theorem alarmCancel_keeps_closedLaw (s : State) (law : ClosedLaw s) : ClosedLaw (alarmCancel s).1 := by
  unfold alarmCancel
  split
  · exact law
  · split
    · exact closedLaw_depends.keep (makeAlert_frame true 3 _) (by decide) (returnToNormal_keeps_closedLaw s law)
    · exact law
  · exact law

theorem takeStandDown_keeps_closedLaw (s : State) (law : ClosedLaw s) : ClosedLaw (takeStandDown s) := by
  unfold takeStandDown
  split
  · exact returnToNormal_keeps_closedLaw s law
  · exact law

theorem takeLevels_keeps_closedLaw (l0 l1 : Option Level) (s : State) (law : ClosedLaw s) : ClosedLaw (takeLevels l0 l1 s) := by
  unfold takeLevels
  simp only
  split
  · obtain ⟨-, press⟩ | ⟨normal, press⟩ := takePress_cases
      { s with alarm := { s.alarm with line0 := s.alarm.line0.reached l0, line1 := s.alarm.line1.reached l1, latch := true } }
    · rw [press]
      exact closedLaw_of_same law (escalate_frame _ .closed (by decide)) (by simp) (by simp) (by rw [escalate_frame _ .trip (by decide)]; exact id)
    · rw [press]
      rw [closedLaw_iff] at *
      obtain ⟨list, quiet, -⟩ := law
      obtain ⟨noIntent, none⟩ := quiet normal
      rw [beginEmergency_frame _ .closed (by decide), beginEmergency_state, beginEmergency_pinIntent, beginEmergency_trip]
      refine ⟨list, nofun, fun intended => ⟨?_, none⟩⟩
      rw [Option.isSome_map]
      exact (Bool.or_eq_true ..).mp intended |>.resolve_left (by simp [noIntent])
  · exact law

/-- A change of the Alarm Unit that keeps the intent, and the state unless to one that is not NORMAL, keeps the law. -/
theorem closedLaw_of_record {F : List Field} {s t : State} (frame : changesOnly F s t) (closed : Field.closed ∉ F) (trip : Field.trip ∉ F)
    (normal : t.alarm.record.state = .normal → s.alarm.record.state = .normal)
    (intent : t.alarm.record.pinIntent = s.alarm.record.pinIntent) (law : ClosedLaw s) : ClosedLaw t :=
  closedLaw_of_same law (frame .closed closed) normal intent (by rw [show t.trip = s.trip from frame .trip trip]; exact id)

theorem completeEntry_keeps_closedLaw (n : Nat) (s : State) (law : ClosedLaw s) : ClosedLaw (completeEntry n s) := by
  unfold completeEntry
  split
  · exact closedLaw_of_stems law (markSent_stems _) rfl rfl
  · exact law

theorem takeTransmissionEnd_keeps_closedLaw (s : State) (law : ClosedLaw s) : ClosedLaw (takeTransmissionEnd s) := by
  have released : ∀ x, ClosedLaw x → ClosedLaw (releaseKey x) := fun x lx => closedLaw_depends.keep (releaseKey_frame x) (by decide) lx
  unfold takeTransmissionEnd
  split
  · exact law
  · split
    · exact released _ (completeEntry_keeps_closedLaw _ _ law)
    · exact released _ law
    · exact law

/-! ## Every step -/

/-- What a loss of supply and the first step of a start leave: the list, the record and the trip. -/
theorem resetVolatile_keeps_closedLaw (p : Power) (s : State) (law : ClosedLaw s) : ClosedLaw { resetVolatile s with power := p } := law

theorem warmSteps_keeps_closedLaw (reach : StartReach) (s : State) (law : ClosedLaw s) : ClosedLaw (warmSteps reach s) := by
  have found := resetVolatile_keeps_closedLaw .up s law
  have active : ∀ x, ClosedLaw x → ClosedLaw (checkActive x) := fun x lx => closedLaw_depends.keep (checkActive_frame x) (by decide) lx
  have pending : ∀ x, ClosedLaw x → ClosedLaw (checkPending x) := fun x lx => closedLaw_depends.keep (checkPending_frame x) (by decide) lx
  have trip : ∀ x, ClosedLaw x → ClosedLaw (continueTrip x) := fun x lx => closedLaw_of_same lx
    (continueTrip_frame x .closed (by decide)) (by rw [continueTrip_frame x .alarm (by decide)]; exact id)
    (by rw [continueTrip_frame x .alarm (by decide)]) (by rw [continueTrip_trip_isSome]; exact id)
  have emergency : ∀ x, ClosedLaw x → ClosedLaw (continueEmergency x) := fun x lx => by
    unfold continueEmergency
    split <;> exact lx
  cases reach with
  | kind => exact found
  | activeImage => exact active _ found
  | images => exact pending _ (active _ found)
  | trip => exact trip _ (pending _ (active _ found))
  | emergency => exact emergency _ (trip _ (pending _ (active _ found)))

theorem warmStart_keeps_closedLaw (s : State) (law : ClosedLaw s) : ClosedLaw (warmStart s) := by
  unfold warmStart restartBeacon
  have steps := ensureFareTotal_keeps_closedLaw _ (warmSteps_keeps_closedLaw .emergency s law)
  split
  · exact closedLaw_of_record (beginMark_frame _) (by decide) (by decide) (by simp) (by simp) steps
  · exact steps

/-- So does a change that keeps the list and the Alarm Unit, and a trip in progress. -/
theorem closedLaw_of_trip {F : List Field} {s t : State} (frame : changesOnly F s t) (closed : Field.closed ∉ F) (alarm : Field.alarm ∉ F)
    (trip : s.trip.isSome → t.trip.isSome) (law : ClosedLaw s) : ClosedLaw t := by
  have same : t.alarm = s.alarm := frame .alarm alarm
  exact closedLaw_of_same law (frame .closed closed) (by simp [same]) (by simp [same]) trip

theorem flagDown_trip_isSome (mode n : Nat) (s : State) (h : s.trip.isSome) : (flagDown mode n s).1.trip.isSome := by
  simp [flagDown, h, done]

/-- A job ended by the air may leave the trip, which goes on (R47, R71, R106). -/
theorem cancelJob_trip_isSome (n : Nat) (s : State) : (cancelJob n s).trip.isSome = s.trip.isSome := by
  have emptied : (emptyPlaces n s).trip.isSome = s.trip.isSome := by simp [emptyPlaces]
  unfold cancelJob
  split
  · rw [dutyChanged_frame _ _ .trip (by decide), emptied]
  · split
    · rw [refreshStatus_frame _ _ .trip (by decide), emptied]
    · split
      · exact emptied
      · rfl

theorem takeWithdraw_trip_isSome (n : Nat) (s : State) : (takeWithdraw n s).trip.isSome = s.trip.isSome := by
  have withdrawn : (withdrawJob n s).trip.isSome = s.trip.isSome := by
    unfold withdrawJob
    split
    · exact cancelJob_trip_isSome n s
    · rfl
  unfold takeWithdraw
  split
  · split
    · exact withdrawn
    · rw [endOffer_frame _ _ _ .trip (by decide)]
  · exact withdrawn

theorem setSensitivity_record (l : AlarmLine) (n : Nat) (s : State) : (setSensitivity l n s).1.alarm.record = s.alarm.record := by
  unfold setSensitivity
  split
  · rfl
  · split
    · simp only [done, changeSensitivity]
      split
      · rfl
      · rw [setLine_record]
        cases l <;> rfl
    · rfl

theorem setPriority_record (k v : Nat) (s : State) : (setPriority k v s).1.alarm.record = s.alarm.record := by
  unfold setPriority
  split
  · rfl
  · simp only [done, writeLevel]
    split <;> rfl

theorem takeArmed_record (l : AlarmLine) (v : Level) (s : State) : (takeArmed l v s).alarm.record = s.alarm.record := by
  unfold takeArmed
  split
  · rfl
  · split
    · rfl
    · exact setLine_record _ _ _

theorem takeStuck_record (l : AlarmLine) (s : State) : (takeStuck l s).alarm.record = s.alarm.record := by
  unfold takeStuck
  split
  · rw [placeFault_frame _ _ _ .alarm (by decide), setLine_record]
  · rfl

/-- What the law of the closed trips takes of each owner that touches the list, the Alarm Unit or the trip. -/
theorem closedLaw_beyond : KeptBeyond [.closed, .alarm, .trip] ClosedLaw where
  evaluation := .inr fun s law _ => closedLaw_of_trip (takeEvaluation_frame s) (by decide) (by decide) (by simp [takeEvaluation_trip_isSome]) law
  flagDown := .inr fun m n s => closedLaw_of_trip (flagDown_frame m n s) (by decide) (by decide) (flagDown_trip_isSome m n s)
  stop := .inr fun s => closedLaw_of_trip (stop_frame s) (by decide) (by decide) (by simp [stop_trip_isSome])
  resume := .inr fun s => closedLaw_of_trip (resume_frame s) (by decide) (by decide) (by simp [resume_trip_isSome])
  clear := .inr clear_keeps_closedLaw
  addExtra := .inr fun n s => closedLaw_of_trip (addExtra_frame n s) (by decide) (by decide) (by simp [addExtra_trip_isSome])
  setSensitivity := .inr fun l n s => closedLaw_of_record (setSensitivity_frame l n s) (by decide) (by decide)
    (by simp [setSensitivity_record]) (by simp [setSensitivity_record])
  setPriority := .inr fun a b s => closedLaw_of_record (setPriority_frame a b s) (by decide) (by decide)
    (by simp [setPriority_record]) (by simp [setPriority_record])
  alarmCancel := .inr fun s law _ => alarmCancel_keeps_closedLaw s law
  head := .inr fun h s law _ _ =>
    closedLaw_depends.takeHead (by decide) ownerFailed_keeps_closedLaw ownerAcknowledged_keeps_closedLaw h s law
  txEnd := .inr takeTransmissionEnd_keeps_closedLaw
  withdraw := .inr fun n s => closedLaw_of_trip (takeWithdraw_frame n s) (by decide) (by decide) (by simp [takeWithdraw_trip_isSome])
  jobCancel := .inr fun n s => closedLaw_of_trip (cancelJob_frame n s) (by decide) (by decide) (by simp [cancelJob_trip_isSome])
  alertSeen := .inr fun s law _ => by
    unfold takeAlertSeen
    split
    · exact closedLaw_of_same law rfl (by simp) rfl id
    · exact law
  standDown := .inr fun s law _ => takeStandDown_keeps_closedLaw s law
  beaconHold := .inr fun n s law => by
    unfold takeBeaconHold
    split <;> exact law
  levels := .inr fun a b s law _ => takeLevels_keeps_closedLaw a b s law
  armed := .inr fun a b s => closedLaw_of_record (takeArmed_frame a b s) (by decide) (by decide)
    (by simp [takeArmed_record]) (by simp [takeArmed_record])
  stuck := .inr fun a s => closedLaw_of_record (takeStuck_frame a s) (by decide) (by decide)
    (by simp [takeStuck_record]) (by simp [takeStuck_record])
  cancelExpiry := .inr fun s law _ => by
    unfold takeCancelExpiry
    split <;> exact law
  cycleStart := .inr fun s law => by
    unfold takeCycleStart
    split <;> exact law
  burst := .inr fun s law => by
    unfold takeBurst
    split
    · exact closedLaw_of_record (burst_frame _ _) (by decide) (by decide) (by simp) (by simp) (s := reach _ s) law
    · exact law
  down s law := resetVolatile_keeps_closedLaw .down s law
  abandoned reach s law := resetVolatile_keeps_closedLaw .down _ (warmSteps_keeps_closedLaw reach s law)
  cold s := by simp [ClosedLaw, coldStart, State.reset, AlarmUnit.reset, EmergencyRecord.cold]
  warm := warmStart_keeps_closedLaw

/-- Settles O11: the law of the closed trips is kept by every owner that touches it. -/
theorem closedLawIsKept : Obligations.ClosedLawIsKept := keeps_of_owners (closedLaw_beyond.keptByOwners closedLaw_depends)

end Sys2Proof.Machine
end

section
/-! PROOFS. The Uplink Queue as its owners act on it (R154, R155): every owner's change of the Radio Link is a row of a few acts. -/

namespace Sys2Proof.Machine

open Sys2Proof

/-! ## The acts -/

/-- One act of an owner on the Radio Link: a creation in a free general position, the creation, refresh or removal of an entry of a reserved
kind, a receipt, or a position fix. -/
inductive OwnerAct : Radio → Radio → Prop where
  | general (c : Content) (r : Radio) (kind : reservedKind (contentKind c) = false) (room : r.generalFree = true) : OwnerAct r (r.create c)
  | reserved (c : Content) (r : Radio) (kind : reservedKind (contentKind c) = true) : OwnerAct r (r.createReserved c)
  | refresh (c : Content) (r : Radio) (kind : reservedKind (contentKind c) = true) : OwnerAct r (r.refreshReserved c)
  | remove (k : Kind) (r : Radio) (kind : reservedKind k = true) : OwnerAct r (r.removeOwned k)
  | receipt (n : Nat) (st : ReceiptStatus) (r : Radio) : OwnerAct r (r.queueReceipt n st)
  | position (f : Option Fix) (r : Radio) : OwnerAct r { r with fix := f }

/-- A row of acts. -/
abbrev OwnerActs : Radio → Radio → Prop := Relation.ReflTransGen OwnerAct

/-- Between two states the Radio Link changed by owners' acts alone. -/
def ByOwners (s t : State) : Prop := OwnerActs s.radio t.radio

theorem ByOwners.refl {s : State} : ByOwners s s := Relation.ReflTransGen.refl

theorem ByOwners.trans {s t u : State} (first : ByOwners s t) (next : ByOwners t u) : ByOwners s u := Relation.ReflTransGen.trans first next

/-- One act. -/
theorem ByOwners.one {s t : State} (act : OwnerAct s.radio t.radio) : ByOwners s t := Relation.ReflTransGen.single act

/-- What every act keeps, a row of acts keeps. -/
theorem OwnerActs.keeps {P : Radio → Prop} (act : ∀ r r', OwnerAct r r' → P r → P r') {r r' : Radio} (acts : OwnerActs r r') (h : P r) : P r' := by
  induction acts with
  | refl => exact h
  | tail _ one ih => exact act _ _ one ih

theorem OwnerAct.levels {r r' : Radio} (act : OwnerAct r r') : r'.levels = r.levels := by
  cases act with
  | general => rfl
  | reserved c => rw [Radio.createReserved_rest]
  | refresh c => rw [Radio.refreshReserved_rest]
  | remove => rfl
  | receipt n st => rw [Radio.queueReceipt_rest]
  | position => rfl

/-- Owners never set a level. -/
theorem ByOwners.levels {s t : State} (acts : ByOwners s t) : t.radio.levels = s.radio.levels :=
  OwnerActs.keeps (P := fun r => r.levels = s.radio.levels) (fun _ _ act h => act.levels.trans h) acts rfl

theorem OwnerActs.one {r r' : Radio} (act : OwnerAct r r') : OwnerActs r r' := Relation.ReflTransGen.single act

/-- Where the Radio Link is not among the parts changed, no act is done. -/
theorem ByOwners.of_frame {F : List Field} {s t : State} (frame : changesOnly F s t) (rest : Field.radio ∉ F) : ByOwners s t := by
  unfold ByOwners
  rw [show t.radio = s.radio from frame .radio rest]

/-- Acts on a state that has the Radio Link of the first. -/
theorem ByOwners.after {s u t : State} (acts : ByOwners u t) (same : u.radio = s.radio) : ByOwners s t := by
  unfold ByOwners at *
  rwa [← same]

/-- Acts for the members of a list, in turn. -/
theorem OwnerActs.foldl {α : Type} {f : Radio → α → Radio} (one : ∀ r a, OwnerActs r (f r a)) (l : List α) (r : Radio) :
    OwnerActs r (l.foldl f r) := by
  induction l generalizing r with
  | nil => exact .refl
  | cons a l ih => exact (one r a).trans (ih _)

/-! ## The queue's operations -/

theorem OwnerActs.createGeneral (c : Content) (r : Radio) (kind : reservedKind (contentKind c) = false) : OwnerActs r (r.createGeneral c) := by
  unfold Radio.createGeneral
  split
  · exact .one (.general c r kind ‹_›)
  · exact .refl

theorem OwnerActs.queueDecline (n : Nat) (reason : DeclineReason) (r : Radio) : OwnerActs r (r.queueDecline n reason) := by
  unfold Radio.queueDecline
  split
  · exact .refl
  · exact .createGeneral _ r rfl

theorem OwnerActs.queueRelease (n : Nat) (time : ClockReading) (r : Radio) : OwnerActs r (r.queueRelease n time) := by
  unfold Radio.queueRelease
  split
  · exact .refl
  · exact .createGeneral _ r rfl

/-! ## What the owners share -/

theorem byOwners_queueWaiting (s : State) : ByOwners s (queueWaiting s) := by
  unfold queueWaiting
  split
  · exact .refl
  · split
    · exact .one (.general _ _ rfl ‹_›)
    · exact .refl

theorem byOwners_refreshStatus (reason : StatusReason) (s : State) : ByOwners s (refreshStatus reason s) := .one (.refresh _ _ rfl)

theorem byOwners_recheck (s : State) : ByOwners s (recheck s) := by
  refine OwnerActs.foldl (fun r o => ?_) _ _
  split
  · exact .queueDecline _ _ r
  · exact .refl

theorem byOwners_dutyChanged (reason : StatusReason) (s : State) : ByOwners s (dutyChanged reason s) :=
  (byOwners_refreshStatus reason (noticeTerminal noticeDuty s)).trans (byOwners_recheck _)

theorem byOwners_terminalSign (s : State) : ByOwners s (terminalSign s) := by
  unfold terminalSign
  split
  · split
    · exact .after (byOwners_dutyChanged _ _) rfl
    · exact .refl
  · exact .refl

theorem byOwners_ensureFareTotal (s : State) : ByOwners s (ensureFareTotal s) := by
  unfold ensureFareTotal
  split
  · exact .one (.reserved _ _ rfl)
  · exact .refl

theorem byOwners_removeAccept (s : State) : ByOwners s (removeAccept s) := .one (.remove .accept _ rfl)

theorem byOwners_declineOffer (n : Nat) (r : DeclineReason) (s : State) : ByOwners s (declineOffer n r s) := OwnerActs.queueDecline _ _ _

theorem byOwners_releaseOffer (n : Nat) (s : State) : ByOwners s (releaseOffer n s) := OwnerActs.queueRelease _ _ _

theorem byOwners_receipt (n : Nat) (st : ReceiptStatus) (s : State) : ByOwners s (receipt n st s) := .one (.receipt _ _ _)

/-! ## The Trip Unit -/

theorem byOwners_abandonAccepted (s : State) : ByOwners s (abandonAccepted s) := by
  refine OwnerActs.foldl (fun r o => ?_) _ _
  split
  · exact (OwnerActs.one (.remove .accept _ rfl)).trans (OwnerActs.queueRelease _ _ _)
  · exact .refl

theorem byOwners_takeFlagDown (mode : BandMode) (n : Nat) (img : Image) (s : State) : ByOwners s (takeFlagDown mode n img s) :=
  (((ByOwners.of_frame (startTrip_frame mode n img s) (by decide)).trans (ByOwners.of_frame (hireSlot_frame _) (by decide))).trans
    (byOwners_abandonAccepted _)).trans (byOwners_dutyChanged _ _)

theorem byOwners_flagDown (mode n : Nat) (s : State) : ByOwners s (flagDown mode n s).1 := by
  unfold flagDown
  split
  · exact .refl
  · split
    · exact .refl
    · split
      · exact .refl
      · split
        · exact .refl
        · exact byOwners_takeFlagDown _ _ _ s

theorem byOwners_closeTrip (t : Trip) (total : Nat) (s : State) : ByOwners s (closeTrip t total s) :=
  .after (byOwners_ensureFareTotal _) rfl

theorem byOwners_takeClear (t : Trip) (total : Nat) (s : State) : ByOwners s (takeClear t total s) :=
  ((((byOwners_closeTrip t total s).trans (ByOwners.of_frame (activatePending_frame _) (by decide))).trans
    (ByOwners.of_frame (endTrip_frame _) (by decide))).trans (ByOwners.of_frame (leaveHired_frame _) (by decide))).trans (byOwners_dutyChanged _ _)

theorem byOwners_clear (s : State) : ByOwners s (clear s).1 := by
  unfold clear
  split
  · exact .refl
  · split
    · exact .refl
    · exact byOwners_takeClear _ _ s

/-! ## The Duty Unit -/

theorem byOwners_signOn (s : State) : ByOwners s (signOn s).1 := by
  unfold signOn
  split
  · exact .refl
  · split
    · exact .refl
    · exact .after (byOwners_dutyChanged _ _) rfl

theorem byOwners_signOff (s : State) : ByOwners s (signOff s).1 := by
  unfold signOff
  split
  · exact .refl
  · split
    · exact .refl
    · exact .after (byOwners_dutyChanged _ _) rfl

theorem byOwners_soonClear (minutes : Nat) (s : State) : ByOwners s (soonClear minutes s).1 := by
  unfold soonClear
  split
  · simp only [done, takeSoonClear]
    split
    · exact .after (byOwners_dutyChanged _ _) rfl
    · split
      · exact .refl
      · exact .after (byOwners_refreshStatus _ _) rfl
  · exact .refl

theorem byOwners_cancelClear (s : State) : ByOwners s (cancelClear s).1 := by
  unfold cancelClear
  split
  · exact .after (byOwners_dutyChanged _ _) rfl
  · exact .refl

theorem byOwners_noShow (s : State) : ByOwners s (noShow s).1 := by
  unfold noShow
  split
  · split
    · exact .trans (t := { s with radio := s.radio.create _ }) (.one (.general _ _ rfl ‹_›)) (.after (byOwners_dutyChanged _ _) rfl)
    · exact .refl
  · exact .refl

theorem byOwners_cancelJob (n : Nat) (s : State) : ByOwners s (cancelJob n s) := by
  unfold cancelJob
  split
  · exact byOwners_dutyChanged _ (emptyPlaces n s)
  · split
    · exact byOwners_refreshStatus _ (emptyPlaces n s)
    · split <;> exact .refl

theorem byOwners_takeStatusInterval (s : State) : ByOwners s (takeStatusInterval s) := by
  unfold takeStatusInterval
  split
  · exact .refl
  · exact byOwners_refreshStatus _ (reach _ s)

theorem byOwners_takePresenceExpiry (s : State) : ByOwners s (takePresenceExpiry s) := by
  unfold takePresenceExpiry
  split
  · exact .refl
  · split
    · exact .after (byOwners_dutyChanged _ _) rfl
    · exact .refl

/-! ## The Offer Table -/

theorem byOwners_declineOthers (n : Nat) (s : State) : ByOwners s (declineOthers n s) := by
  refine OwnerActs.foldl (fun r o => ?_) _ _
  split
  · split
    · exact .refl
    · exact .queueDecline _ _ r
  · exact .refl

theorem byOwners_takeAccept (n : Nat) (s : State) : ByOwners s (takeAccept n s) := by
  have made : ByOwners s { s with radio := s.radio.createReserved (.accept n) } := .one (.reserved _ _ rfl)
  unfold takeAccept
  simp only
  split
  · exact made.trans (.after (byOwners_declineOthers n _) rfl)
  · exact made

theorem byOwners_accept (n : Nat) (s : State) : ByOwners s (accept n s).1 := by
  unfold accept
  split
  · exact .refl
  · split
    · exact .refl
    · split
      · exact .refl
      · split
        · exact byOwners_takeAccept n s
        · exact .refl
    · exact .refl

theorem byOwners_decline (n : Nat) (s : State) : ByOwners s (decline n s).1 := by
  unfold decline
  split
  · exact .refl
  · split
    · exact .refl
    · exact byOwners_declineOffer n _ (setOffer n _ s)
    · exact .refl

theorem byOwners_declineDirected (o : OfferFields) (r : DeclineReason) (s : State) : ByOwners s (declineDirected o r s) := by
  unfold declineDirected
  split
  · exact byOwners_declineOffer _ _ s
  · exact .refl

theorem byOwners_filterOffer (o : OfferFields) (s : State) : ByOwners s (filterOffer o s) := by
  unfold filterOffer placeOffer
  split
  · exact byOwners_declineDirected o _ s
  · split
    · exact .refl
    · split
      · exact .refl
      · split
        · exact .refl
        · exact byOwners_declineDirected o _ s

theorem byOwners_takeOffer (a : Address) (o : OfferFields) (s : State) : ByOwners s (takeOffer a o s) := by
  unfold takeOffer
  split
  · split
    · split
      · exact byOwners_declineOffer _ _ s
      · exact .refl
    · split
      · exact .refl
      · exact byOwners_filterOffer o s
  · exact .refl

theorem byOwners_takeAwardExpiry (n : Nat) (s : State) : ByOwners s (takeAwardExpiry n s) := by
  unfold takeAwardExpiry
  split
  · exact byOwners_removeAccept (reach _ s)
  · exact .refl

theorem byOwners_passJob (o : Offer) (h : Holder) (d : DutyUnit) (s : State) : ByOwners s (passJob o h d s) := .one (.remove .accept _ rfl)

theorem byOwners_placeJob (o : Offer) (s : State) : ByOwners s (placeJob o s) := by
  unfold placeJob
  split
  · exact (byOwners_passJob o _ _ s).trans (byOwners_dutyChanged _ _)
  · exact ((byOwners_passJob o _ _ s).trans (byOwners_refreshStatus _ _)).trans (byOwners_recheck _)
  · exact (byOwners_removeAccept s).trans (.after (byOwners_releaseOffer o.number _) rfl)

theorem byOwners_takeAward (n : Nat) (s : State) : ByOwners s (takeAward n s) := by
  unfold takeAward
  split
  · exact .refl
  · split
    · split
      · exact byOwners_placeJob _ s
      · exact byOwners_releaseOffer n s
    · exact byOwners_releaseOffer n s

theorem byOwners_endOffer (o : Offer) (st : OfferState) (s : State) : ByOwners s (endOffer o st s) := by
  unfold endOffer
  split
  · exact byOwners_removeAccept s
  · exact .refl

theorem byOwners_takeLost (n : Nat) (s : State) : ByOwners s (takeLost n s) := by
  unfold takeLost
  split
  · split
    · exact .refl
    · exact byOwners_endOffer _ _ s
  · exact .refl

theorem byOwners_withdrawJob (n : Nat) (s : State) : ByOwners s (withdrawJob n s) := by
  unfold withdrawJob
  split
  · exact byOwners_cancelJob n s
  · exact .refl

theorem byOwners_takeWithdraw (n : Nat) (s : State) : ByOwners s (takeWithdraw n s) := by
  unfold takeWithdraw
  split
  · split
    · exact byOwners_withdrawJob n s
    · exact byOwners_endOffer _ _ s
  · exact byOwners_withdrawJob n s

/-! ## The Message Store -/

theorem byOwners_answerDirected (c : MessageClass) (n : Nat) (st : ReceiptStatus) (s : State) : ByOwners s (answerDirected c n st s) := by
  unfold answerDirected
  split
  · exact .refl
  · exact byOwners_receipt n st s

theorem byOwners_takeMessage (a : Address) (n : Nat) (c : MessageClass) (text : List Byte) (s : State) : ByOwners s (takeMessage a n c text s) := by
  unfold takeMessage
  split
  · split
    · exact byOwners_answerDirected c n _ s
    · split
      · exact byOwners_answerDirected c n _ s
      · unfold roomForMessage
        split
        · split
          · exact .after (byOwners_answerDirected c n _ _) rfl
          · exact byOwners_answerDirected c n _ s
        · exact byOwners_answerDirected c n _ s
  · exact .refl

theorem byOwners_markRead (n : Nat) (s : State) : ByOwners s (markRead n s).1 := by
  unfold markRead
  split
  · exact .refl
  · split
    · exact .refl
    · simp only [done]
      split
      · exact byOwners_receipt n _ (changeInbound n _ s)
      · exact .refl

theorem byOwners_takeOutbound (linked given : Option Nat) (text : List Byte) (s : State) : ByOwners s (takeOutbound linked given text s).1 := by
  unfold takeOutbound
  split
  · exact .refl
  · simp only
    split
    · exact .after (byOwners_queueWaiting _) rfl
    · split
      · exact .after (byOwners_queueWaiting _) rfl
      · exact .refl

theorem byOwners_sendMessage (linked : Option Nat) (canned : Nat) (text : List Byte) (s : State) :
    ByOwners s (sendMessage linked canned text s).1 := by
  unfold sendMessage
  split
  · exact .refl
  · exact byOwners_takeOutbound _ _ _ s

theorem byOwners_reply (n canned : Nat) (text : List Byte) (s : State) : ByOwners s (reply n canned text s).1 := by
  have sent := byOwners_sendMessage (some n) canned text s
  unfold reply
  split
  · exact .refl
  · split
    · exact .refl
    · simp only [markReplied]
      split <;> exact sent

/-! ## The owners told of an outcome, and the fix -/

theorem byOwners_fareTotalAcknowledged (s : State) : ByOwners s (fareTotalAcknowledged s) := by
  unfold fareTotalAcknowledged
  split
  · exact .refl
  · exact .after (byOwners_ensureFareTotal _) rfl

theorem byOwners_ownerAcknowledged (e : Entry) (s : State) : ByOwners s (ownerAcknowledged e s) := by
  unfold ownerAcknowledged
  split
  case h_1 => exact .refl
  case h_2 => exact .of_frame (acceptAcknowledged_frame _ s) (by decide)
  case h_4 => exact byOwners_fareTotalAcknowledged s
  case h_6 => exact .of_frame (statusAcknowledged_frame _ s) (by decide)
  case h_8 => exact (ByOwners.of_frame (resolveOutbound_frame _ _ s) (by decide)).trans (byOwners_queueWaiting _)
  all_goals exact byOwners_queueWaiting s

theorem byOwners_jobEventFailed (k : JobEventKind) (n : Nat) (s : State) : ByOwners s (jobEventFailed k n s) :=
  .after (byOwners_refreshStatus _ _) rfl

theorem byOwners_ownerFailed (e : Entry) (s : State) : ByOwners s (ownerFailed e s) := by
  unfold ownerFailed
  split
  case h_3 => exact (byOwners_jobEventFailed _ _ s).trans (byOwners_queueWaiting _)
  case h_8 => exact (ByOwners.of_frame (resolveOutbound_frame _ _ s) (by decide)).trans (byOwners_queueWaiting _)
  case h_5 | h_7 => exact byOwners_queueWaiting s
  all_goals exact .refl

theorem byOwners_setPosition (latitude longitude : Int) (s : State) : ByOwners s (setPosition latitude longitude s).1 := by
  unfold setPosition
  split
  · exact .one (.position _ _)
  · exact .refl

end Sys2Proof.Machine
end

section
/-! PROOFS. The law of the emergency (R126, R129, R152) is kept by every step. -/

namespace Sys2Proof.Machine

open Sys2Proof

/-! ## The levels, which the Radio Link's own work leaves (R152) -/

@[simp] theorem transmit_levels (k : TxKind) (f : List Byte) (s : State) : (transmit k f s).radio.levels = s.radio.levels := rfl

@[simp] theorem sendEntry_levels (e : Entry) (s : State) : (sendEntry e s).radio.levels = s.radio.levels := rfl

@[simp] theorem releaseKey_levels (s : State) : (releaseKey s).radio.levels = s.radio.levels := by
  rw [(releaseKey_radio s).1]

@[simp] theorem cutOff_levels (s : State) : (cutOff s).radio.levels = s.radio.levels := by
  rw [(cutOff_radio s).1]

@[simp] theorem settleEntry_levels (n : Nat) (st : EntryState) (r : Radio) : (r.settleEntry n st).levels = r.levels := by
  rw [Radio.settleEntry_rest]

@[simp] theorem sendBlind_levels (status : Nat) (s : State) : (sendBlind status s).radio.levels = s.radio.levels := by
  unfold sendBlind
  split
  · split <;> rfl
  · rfl

@[simp] theorem noticeEmergency_radio (s : State) : (noticeEmergency s).radio = s.radio := rfl

@[simp] theorem makeAlert_levels (cancelled : Bool) (status : Nat) (s : State) : (makeAlert cancelled status s).radio.levels = s.radio.levels := by
  unfold makeAlert
  split
  · simp [Radio.removeOwned]
  all_goals simp only; rw [Radio.refreshReserved_rest]

@[simp] theorem burst_levels (c : BeaconCycle) (s : State) : (burst c s).radio.levels = s.radio.levels := by
  unfold burst
  cases c.held <;> simp

@[simp] theorem beginMark_levels (s : State) : (beginMark s).radio.levels = s.radio.levels := by
  simp [beginMark, startCycle]

@[simp] theorem recheck_levels (s : State) : (recheck s).radio.levels = s.radio.levels := (byOwners_recheck s).levels

/-- In an emergency every level is 0 (R129). -/
@[simp] theorem beginEmergency_levels (s : State) : (beginEmergency s).radio.levels = Levels.zero := by
  simp [beginEmergency, enterEmergency]

@[simp] theorem escalate_levels (s : State) : (escalate s).radio.levels = s.radio.levels := by
  unfold escalate
  split <;> simp [changeSet, escalateRecord]

@[simp] theorem setLink_levels (l : LinkState) (s : State) : (setLink l s).radio.levels = s.radio.levels := by
  unfold setLink
  split <;> rfl

theorem retryEntry_levels (e : Entry) (s : State) : (retryEntry e s).radio.levels = s.radio.levels := by
  unfold retryEntry
  split
  · rfl
  · split
    · exact (byOwners_ownerFailed e (dropEntry e.arrival s)).levels
    · rfl

theorem notAcknowledged_levels (n : Nat) (s : State) : (notAcknowledged n s).radio.levels = s.radio.levels := by
  unfold notAcknowledged
  split
  · split
    · exact retryEntry_levels _ s
    · rfl
  · rfl

theorem takeAck_levels (s : State) (ack : Nat × Nat) : (takeAck s ack).radio.levels = s.radio.levels := by
  unfold takeAck
  split
  · split
    · rename_i e _
      exact (byOwners_ownerAcknowledged e (dropEntry e.arrival s)).levels
    · rfl
  · rfl

theorem foldl_levels {α : Type} {f : State → α → State} (one : ∀ s a, (f s a).radio.levels = s.radio.levels) (l : List α) (s : State) :
    (l.foldl f s).radio.levels = s.radio.levels := by
  induction l generalizing s with
  | nil => rfl
  | cons a l ih => exact (ih _).trans (one s a)

theorem takeHead_levels (h : HeadFields) (s : State) : (takeHead h s).radio.levels = s.radio.levels := by
  simp only [takeHead, openCycle, setLink_levels, settleAcks]
  rw [foldl_levels (fun x n => notAcknowledged_levels n x), foldl_levels takeAck_levels]
  rfl

theorem takeRetryLimit_levels (n : Nat) (s : State) : (takeRetryLimit n s).radio.levels = s.radio.levels := by
  unfold takeRetryLimit
  split
  · split
    · exact (byOwners_ownerFailed _ (dropEntry n s)).levels
    · rfl
  · rfl

theorem takeBackoffEnd_levels (n : Nat) (s : State) : (takeBackoffEnd n s).radio.levels = s.radio.levels := by
  unfold takeBackoffEnd
  split
  · split <;> rfl
  · rfl

theorem takeLinkLost_levels (s : State) : (takeLinkLost s).radio.levels = s.radio.levels := by
  unfold takeLinkLost
  split
  · rfl
  · split
    · rfl
    · simp [loseLink]

theorem takeContention_levels (s : State) : (takeContention s).radio.levels = s.radio.levels := by
  unfold takeContention sendContention
  split
  · rfl
  · split
    · rfl
    · split
      · split
        · rfl
        · split <;> rfl
      · rfl

theorem takeReserved_levels (n : Nat) (s : State) : (takeReserved n s).radio.levels = s.radio.levels := by
  unfold takeReserved sendReserved
  split
  · rfl
  · split
    · split
      · split <;> rfl
      · rfl
    · rfl

theorem takeTransmissionEnd_levels (s : State) : (takeTransmissionEnd s).radio.levels = s.radio.levels := by
  unfold takeTransmissionEnd
  split
  · rfl
  · split <;> simp [completeEntry]

theorem takeBlindEnd_levels (s : State) : (takeBlindEnd s).radio.levels = s.radio.levels := by
  unfold takeBlindEnd
  split
  · rfl
  · split <;> simp

/-! ## The law -/

/-- A change that leaves the Alarm Unit, the levels and the supply keeps the law. -/
theorem emergencyLaw_of_same {s t : State} (law : EmergencyLaw s) (alarm : t.alarm = s.alarm) (levels : t.radio.levels = s.radio.levels)
    (power : t.power = s.power) : EmergencyLaw t := by
  unfold EmergencyLaw at *
  rwa [alarm, levels, power]

theorem emergencyLaw_depends : DependsOn [.alarm, .radio, .power] EmergencyLaw := fun s t same law =>
  emergencyLaw_of_same law (same .alarm (by simp)) (by rw [show t.radio = s.radio from same .radio (by simp)]) (same .power (by simp))

/-- An owner of none of them whose work leaves the levels keeps it. -/
theorem emergencyLaw_of_levels {F : List Field} {s t : State} (frame : changesOnly F s t) (levels : t.radio.levels = s.radio.levels)
    (law : EmergencyLaw s) (alarm : Field.alarm ∉ F := by decide) (power : Field.power ∉ F := by decide) : EmergencyLaw t :=
  emergencyLaw_of_same law (frame .alarm alarm) levels (frame .power power)

/-- Changes of the lines alone keep it. -/
theorem emergencyLaw_of_lines {s t : State} (law : EmergencyLaw s) (l0 l1 : LineState) (alarm : t.alarm = { s.alarm with line0 := l0, line1 := l1 })
    (levels : t.radio.levels = s.radio.levels) (power : t.power = s.power) : EmergencyLaw t := by
  unfold EmergencyLaw at *
  rwa [alarm, levels, power]

theorem levelsInBounds_default : levelsInBounds Levels.default = true := by decide

/-- A level within the bounds of its kind keeps the levels within bounds (R152). -/
theorem levelsInBounds_set {l : Levels} (k : Kind) (v : Nat) (h : levelsInBounds l = true) :
    levelsInBounds (l.set k (clamp (lowestLevel k) 3 v)) = true := by
  cases k <;> simp_all [levelsInBounds, Levels.set, lowestLevel, clamp, within]

/-! ## The owners of the emergency -/

/-- The saved copy of an emergency, which a return to NORMAL puts back. -/
theorem emergencyLaw_saved {s : State} (law : EmergencyLaw s) (up : s.power = .up) (emergency : s.alarm.record.state ≠ .normal) :
    levelsInBounds (s.alarm.saved.getD s.radio.levels) = true := by
  obtain ⟨-, -, -, -, -, supplied, -⟩ := law
  obtain ⟨-, saved, -⟩ := supplied up emergency
  cases h : s.alarm.saved <;> simp_all

/-- The return to NORMAL puts everything back (R131). -/
theorem returnToNormal_keeps_emergencyLaw (s : State) (law : EmergencyLaw s) (up : s.power = .up) (emergency : s.alarm.record.state ≠ .normal) :
    EmergencyLaw (returnToNormal s) := by
  have restored := emergencyLaw_saved law up emergency
  obtain ⟨-, -, presses, -, latch, -⟩ := law
  simp [EmergencyLaw, returnToNormal, restored, presses, latch]

theorem alarmCancel_keeps_emergencyLaw (s : State) (law : EmergencyLaw s) (up : s.power = .up) : EmergencyLaw (alarmCancel s).1 := by
  unfold alarmCancel
  split
  · exact law
  · split
    · exact emergencyLaw_of_levels (makeAlert_frame true 3 _) (makeAlert_levels _ _ _) (returnToNormal_keeps_emergencyLaw s law up (by simp_all))
    · exact law
  · exact law

theorem takeStandDown_keeps_emergencyLaw (s : State) (law : EmergencyLaw s) (up : s.power = .up) : EmergencyLaw (takeStandDown s) := by
  unfold takeStandDown
  split
  · exact returnToNormal_keeps_emergencyLaw s law up ((inEmergency_eq_true s).mp ‹_›)
  · exact law

/-- A first press (R127): the record, the window, the saved copy and the levels are those of a new emergency. -/
theorem beginEmergency_keeps_emergencyLaw (s : State) (law : EmergencyLaw s) (normal : s.alarm.record.state = .normal) :
    EmergencyLaw (beginEmergency s) := by
  obtain ⟨-, -, -, -, -, -, bounds⟩ := law.1 normal
  obtain ⟨-, -, -, -, latch, -⟩ := law
  unfold EmergencyLaw
  rw [beginEmergency_levels]
  simp [beginEmergency, bounds, latch]

/-- A further press (R130): the record counts it, and a mark runs on or begins. -/
theorem escalate_keeps_emergencyLaw (s : State) (law : EmergencyLaw s) (up : s.power = .up) (emergency : s.alarm.record.state ≠ .normal) :
    EmergencyLaw (escalate s) := by
  obtain ⟨-, began, presses, hold, latch, supplied, opened, window⟩ := law
  obtain ⟨zero, saved, cycle, position⟩ := supplied up emergency
  obtain ⟨pressed, started⟩ := began emergency
  unfold EmergencyLaw
  rw [escalate_levels]
  unfold escalate
  split
  · simp_all [changeSet, escalateRecord]
    split <;> simp_all
  · simp_all [changeSet, escalateRecord]

theorem takeLevels_keeps_emergencyLaw (l0 l1 : Option Level) (s : State) (law : EmergencyLaw s) (up : s.power = .up) :
    EmergencyLaw (takeLevels l0 l1 s) := by
  have reached : EmergencyLaw { s with alarm := { s.alarm with line0 := s.alarm.line0.reached l0, line1 := s.alarm.line1.reached l1 } } :=
    emergencyLaw_of_lines law _ _ rfl rfl rfl
  have cleared : EmergencyLaw { s with alarm := { s.alarm with
      line0 := s.alarm.line0.reached l0, line1 := s.alarm.line1.reached l1, latch := false } } := by
    obtain ⟨normal, began, presses, hold, -, rest⟩ := law
    exact ⟨normal, began, presses, hold, rfl, rest⟩
  unfold takeLevels
  simp only
  split
  · obtain ⟨emergency, press⟩ | ⟨normal, press⟩ := takePress_cases
      { s with alarm := { s.alarm with line0 := s.alarm.line0.reached l0, line1 := s.alarm.line1.reached l1, latch := true } }
    · rw [press]
      exact escalate_keeps_emergencyLaw _ cleared up emergency
    · rw [press]
      exact beginEmergency_keeps_emergencyLaw _ cleared normal
  · exact reached

theorem setLine_keeps_emergencyLaw (l : AlarmLine) (v : LineState) (s : State) (law : EmergencyLaw s) : EmergencyLaw (setLine l v s) := by
  cases l
  · exact emergencyLaw_of_lines law v s.alarm.line1 rfl rfl rfl
  · exact emergencyLaw_of_lines law s.alarm.line0 v rfl rfl rfl

theorem setSensitivity_keeps_emergencyLaw (l : AlarmLine) (n : Nat) (s : State) (law : EmergencyLaw s) : EmergencyLaw (setSensitivity l n s).1 := by
  unfold setSensitivity
  split
  · exact law
  · split
    · simp only [done, changeSensitivity]
      split
      · exact law
      · exact setLine_keeps_emergencyLaw l _ _ (by cases l <;> exact law)
    · exact law

theorem setPriority_keeps_emergencyLaw (k v : Nat) (s : State) (law : EmergencyLaw s) : EmergencyLaw (setPriority k v s).1 := by
  unfold setPriority
  split
  · exact law
  · rename_i kind _
    simp only [done, writeLevel]
    split
    · rename_i emergency
      rw [inEmergency_eq_true] at emergency
      obtain ⟨normal, began, presses, hold, latch, supplied, rest⟩ := law
      refine ⟨fun h => absurd h emergency, began, presses, hold, latch, fun up _ => ?_, rest⟩
      obtain ⟨zero, saved, beacon⟩ := supplied up emergency
      refine ⟨zero, ?_, beacon⟩
      cases h : s.alarm.saved with
      | none => simp [h] at saved
      | some l =>
        rw [h] at saved
        exact levelsInBounds_set kind v saved
    · rename_i quiet
      rw [inEmergency_eq_true, not_not] at quiet
      obtain ⟨normal, began, presses, hold, latch, supplied, rest⟩ := law
      obtain ⟨h1, h2, h3, h4, h5, h6, bounds⟩ := normal quiet
      exact ⟨fun _ => ⟨h1, h2, h3, h4, h5, h6, levelsInBounds_set kind v bounds⟩, began, presses, hold, latch,
        fun _ emergency => absurd quiet emergency, rest⟩

theorem takeArmed_keeps_emergencyLaw (l : AlarmLine) (v : Level) (s : State) (law : EmergencyLaw s) : EmergencyLaw (takeArmed l v s) := by
  unfold takeArmed
  split
  · exact law
  · split
    · exact law
    · exact setLine_keeps_emergencyLaw l _ s law

theorem takeStuck_keeps_emergencyLaw (l : AlarmLine) (s : State) (law : EmergencyLaw s) : EmergencyLaw (takeStuck l s) := by
  unfold takeStuck
  split
  · exact emergencyLaw_depends.keep (placeFault_frame _ _ _) (by decide) (setLine_keeps_emergencyLaw l _ s law)
  · exact law

theorem takeAlertSeen_keeps_emergencyLaw (s : State) (law : EmergencyLaw s) (up : s.power = .up) : EmergencyLaw (takeAlertSeen s) := by
  unfold takeAlertSeen
  split
  · rename_i alerting
    obtain ⟨-, began, presses, hold, latch, supplied, -⟩ := law
    obtain ⟨zero, saved, cycle, position⟩ := supplied up (by simp [alerting])
    obtain ⟨pressed, started⟩ := began (by simp [alerting])
    refine ⟨nofun, fun _ => ⟨pressed, started⟩, presses, hold, latch, fun _ _ => ⟨zero, saved, ?_, position⟩, nofun, fun _ => by simp⟩
    simp only [changeSet, noticeEmergency_alarm]
    split <;> simp_all
  · exact law

theorem takeBeaconHold_keeps_emergencyLaw (n : Nat) (s : State) (law : EmergencyLaw s) : EmergencyLaw (takeBeaconHold n s) := by
  unfold takeBeaconHold
  split
  · rename_i emergency
    rw [inEmergency_eq_true] at emergency
    obtain ⟨normal, began, presses, hold, latch, rest⟩ := law
    exact ⟨fun h => absurd h emergency, began, presses, Nat.min_le_right n 15, latch, rest⟩
  · exact law

theorem takeCancelExpiry_keeps_emergencyLaw (s : State) (law : EmergencyLaw s) : EmergencyLaw (takeCancelExpiry s) := by
  unfold takeCancelExpiry
  split
  · exact law
  · obtain ⟨normal, began, presses, hold, latch, supplied, -⟩ := law
    refine ⟨fun h => ?_, began, presses, hold, latch, supplied, nofun, fun _ => by simp⟩
    obtain ⟨-, quiet⟩ := normal h
    exact ⟨rfl, quiet⟩

/-- The beacon runs only in an emergency. -/
theorem beaconDue_emergency {mark : Bool} {s : State} {c : BeaconCycle} (h : beaconDue mark s = some c) : s.alarm.record.state ≠ .normal := by
  unfold beaconDue at h
  split at h
  · exact (inEmergency_eq_true s).mp (‹_ ∧ _›).1
  · cases h

/-- A new cycle or position keeps the law in an emergency, as long as the hold count does not rise. -/
theorem emergencyLaw_of_cycle {s t : State} (law : EmergencyLaw s) (emergency : s.alarm.record.state ≠ .normal) (c : BeaconCycle)
    (p : Nat × BeaconPhase) (hold : Nat) (lower : hold ≤ s.alarm.record.hold)
    (alarm : t.alarm = { s.alarm with cycle := some c, record := { s.alarm.record with position := some p, hold := hold } })
    (levels : t.radio.levels = s.radio.levels) (power : t.power = s.power) : EmergencyLaw t := by
  obtain ⟨-, began, presses, held, latch, supplied, rest⟩ := law
  unfold EmergencyLaw
  rw [alarm, levels, power]
  refine ⟨fun h => absurd h emergency, began, presses, le_trans lower held, latch, fun up h => ?_, rest⟩
  obtain ⟨zero, saved, -⟩ := supplied up h
  exact ⟨zero, saved, rfl, rfl⟩

theorem takeCycleStart_keeps_emergencyLaw (s : State) (law : EmergencyLaw s) : EmergencyLaw (takeCycleStart s) := by
  unfold takeCycleStart
  split
  · exact emergencyLaw_of_cycle law (beaconDue_emergency ‹_›) _ _ _ (Nat.sub_le _ 1) rfl rfl rfl
  · exact law

theorem takeBurst_keeps_emergencyLaw (s : State) (law : EmergencyLaw s) : EmergencyLaw (takeBurst s) := by
  unfold takeBurst
  split
  · exact emergencyLaw_of_cycle law (beaconDue_emergency ‹_›) _ _ _ le_rfl (burst_alarm _ _) (burst_levels _ _)
      (burst_frame _ _ .power (by decide))
  · exact law

/-! ## Losses and starts (R141, R178, R179) -/

/-- What the law says of the record, which alone is retained. -/
def RecordLawful (r : EmergencyRecord) : Prop :=
  (r.state = .normal → r.cancelOpen = false ∧ r.beaconSet = .urgent ∧ r.position = none ∧ r.hold = 0) ∧
  (r.state ≠ .normal → 1 ≤ r.presses ∧ r.startTime.isSome) ∧ r.presses ≤ 15 ∧ r.hold ≤ 15 ∧ (r.cancelOpen = true → r.state = .alerting)

theorem EmergencyLaw.record {s : State} (law : EmergencyLaw s) : RecordLawful s.alarm.record := by
  obtain ⟨normal, began, presses, hold, -, -, opened, -⟩ := law
  refine ⟨fun h => ?_, began, presses, hold, opened⟩
  obtain ⟨h1, h2, h3, h4, -⟩ := normal h
  exact ⟨h1, h2, h3, h4⟩

/-- A part that goes down keeps its record alone, and so meets the law. -/
theorem emergencyLaw_goDown {s : State} (record : RecordLawful s.alarm.record) : EmergencyLaw (goDown s) := by
  obtain ⟨normal, began, presses, hold, opened⟩ := record
  refine ⟨fun h => ?_, began, presses, hold, rfl, nofun, opened, nofun⟩
  obtain ⟨h1, h2, h3, h4⟩ := normal h
  exact ⟨h1, h2, h3, h4, rfl, rfl, levelsInBounds_default⟩

/-- The Alarm Unit and the levels before an emergency found is continued. -/
theorem beforeEmergency (s : State) : let x := continueTrip (checkPending (checkActive { resetVolatile s with power := .up }))
    x.alarm = AlarmUnit.reset s.alarm.record ∧ x.radio = Radio.reset := by
  refine ⟨?_, ?_⟩
  · rw [continueTrip_frame _ .alarm (by decide), checkPending_frame _ .alarm (by decide), checkActive_frame _ .alarm (by decide)]
    rfl
  · rw [continueTrip_frame _ .radio (by decide), checkPending_frame _ .radio (by decide), checkActive_frame _ .radio (by decide)]
    rfl

/-- The steps of a start touch the record only where an emergency found is continued, whose window they close (R141). -/
theorem warmSteps_record (reach : StartReach) (s : State) :
    (warmSteps reach s).alarm.record = s.alarm.record ∨ (warmSteps reach s).alarm.record = { s.alarm.record with cancelOpen := false } := by
  cases reach with
  | kind => exact .inl rfl
  | activeImage => exact .inl (by simp only [warmSteps]; rw [checkActive_frame _ .alarm (by decide)]; rfl)
  | images => exact .inl (by simp only [warmSteps]; rw [checkPending_frame _ .alarm (by decide), checkActive_frame _ .alarm (by decide)]; rfl)
  | trip => exact .inl (by simp only [warmSteps]; rw [(beforeEmergency s).1]; rfl)
  | emergency =>
    simp only [warmSteps, continueEmergency]
    split
    · exact .inr (by rw [noticeEmergency_alarm]; simp only; rw [(beforeEmergency s).1]; rfl)
    · exact .inl (by rw [(beforeEmergency s).1]; rfl)

theorem warmSteps_recordLawful (reach : StartReach) (s : State) (law : RecordLawful s.alarm.record) :
    RecordLawful (warmSteps reach s).alarm.record := by
  obtain h | h := warmSteps_record reach s
  · rwa [h]
  · obtain ⟨normal, began, presses, hold, -⟩ := law
    rw [h]
    exact ⟨fun n => ⟨rfl, (normal n).2⟩, began, presses, hold, nofun⟩

/-- An emergency found has its levels at 0 and its beacon running, and in NORMAL all stays at its reset value (R141). -/
theorem restartBeacon_emergencyLaw {x : State} {r : EmergencyRecord} (alarm : x.alarm = AlarmUnit.reset r) (radio : x.radio = Radio.reset)
    (record : RecordLawful r) : EmergencyLaw (restartBeacon (ensureFareTotal (continueEmergency x))) := by
  obtain ⟨normal, began, presses, hold, -⟩ := record
  have fare : ∀ y : State, (ensureFareTotal y).alarm = y.alarm := fun y => ensureFareTotal_frame y .alarm (by decide)
  have levels : ∀ y : State, (ensureFareTotal y).radio.levels = y.radio.levels := fun y => (byOwners_ensureFareTotal y).levels
  unfold EmergencyLaw restartBeacon continueEmergency
  by_cases quiet : r.state = .normal
  · obtain ⟨h1, h2, h3, h4⟩ := normal quiet
    simp [inEmergency, fare, levels, alarm, radio, AlarmUnit.reset, Radio.reset, quiet, h1, h2, h3, h4, presses, levelsInBounds_default]
  · obtain ⟨pressed, started⟩ := began quiet
    simp [inEmergency, fare, levels, alarm, AlarmUnit.reset, quiet, pressed, started, presses, levelsInBounds_default]
    omega

/-- A warm start continues an emergency and restarts its beacon. -/
theorem warmStart_keeps_emergencyLaw (s : State) (law : EmergencyLaw s) : EmergencyLaw (warmStart s) :=
  restartBeacon_emergencyLaw (beforeEmergency s).1 (beforeEmergency s).2 law.record

/-- CLEAR takes from the Alarm Unit the pin intent alone, of which the law does not speak (R54). -/
theorem clear_keeps_emergencyLaw (s : State) (law : EmergencyLaw s) : EmergencyLaw (clear s).1 := by
  have levels := (byOwners_clear s).levels
  have power := clear_frame s .power (by decide)
  unfold clear at *
  split
  · exact law
  · split
    · exact law
    · rename_i t _ _ total _ _
      simp_all only [done, Field.same]
      have alarm : (takeClear t total s).alarm = { s.alarm with record := { s.alarm.record with pinIntent := false } } := by
        rw [takeClear_alarm, closeTrip, ensureFareTotal_frame _ .alarm (by decide)]
      unfold EmergencyLaw at *
      rwa [alarm, levels, power]

/-- What the law of the emergency takes of each owner that touches it. -/
theorem emergencyLaw_beyond : KeptBeyond [.alarm, .radio, .power] EmergencyLaw where
  sign := .inr fun s => emergencyLaw_of_levels (terminalSign_frame s) (byOwners_terminalSign s).levels
  flagDown := .inr fun m n s => emergencyLaw_of_levels (flagDown_frame m n s) (byOwners_flagDown m n s).levels
  clear := .inr clear_keeps_emergencyLaw
  signOn := .inr fun s => emergencyLaw_of_levels (signOn_frame s) (byOwners_signOn s).levels
  signOff := .inr fun s => emergencyLaw_of_levels (signOff_frame s) (byOwners_signOff s).levels
  soonClear := .inr fun n s => emergencyLaw_of_levels (soonClear_frame n s) (byOwners_soonClear n s).levels
  cancelClear := .inr fun s => emergencyLaw_of_levels (cancelClear_frame s) (byOwners_cancelClear s).levels
  noShow := .inr fun s => emergencyLaw_of_levels (noShow_frame s) (byOwners_noShow s).levels
  accept := .inr fun n s => emergencyLaw_of_levels (accept_frame n s) (byOwners_accept n s).levels
  decline := .inr fun n s => emergencyLaw_of_levels (decline_frame n s) (byOwners_decline n s).levels
  markRead := .inr fun n s => emergencyLaw_of_levels (markRead_frame n s) (byOwners_markRead n s).levels
  reply := .inr fun n c x s => emergencyLaw_of_levels (reply_frame n c x s) (byOwners_reply n c x s).levels
  sendMessage := .inr fun c x s => emergencyLaw_of_levels (sendMessage_frame none c x s) (byOwners_sendMessage none c x s).levels
  setPosition := .inr fun a b s => emergencyLaw_of_levels (setPosition_frame a b s) (byOwners_setPosition a b s).levels
  setSensitivity := .inr setSensitivity_keeps_emergencyLaw
  setPriority := .inr setPriority_keeps_emergencyLaw
  alarmCancel := .inr alarmCancel_keeps_emergencyLaw
  head := .inr fun h s law _ _ => emergencyLaw_of_levels (takeHead_frame h s) (takeHead_levels h s) law
  backoffEnd := .inr fun n s => emergencyLaw_of_levels (takeBackoffEnd_frame n s) (takeBackoffEnd_levels n s)
  retryLimit := .inr fun n s => emergencyLaw_of_levels (takeRetryLimit_frame n s) (takeRetryLimit_levels n s)
  linkLost := .inr fun s => emergencyLaw_of_levels (takeLinkLost_frame s) (takeLinkLost_levels s)
  contention := .inr fun s => emergencyLaw_of_levels (takeContention_frame s) (takeContention_levels s)
  reserved := .inr fun n s => emergencyLaw_of_levels (takeReserved_frame n s) (takeReserved_levels n s)
  txEnd := .inr fun s => emergencyLaw_of_levels (takeTransmissionEnd_frame s) (takeTransmissionEnd_levels s)
  blindEnd := .inr fun s => emergencyLaw_of_levels (takeBlindEnd_frame s) (takeBlindEnd_levels s)
  offer := .inr fun a o s law _ => emergencyLaw_of_levels (takeOffer_frame a o s) (byOwners_takeOffer a o s).levels law
  award := .inr fun n s => emergencyLaw_of_levels (takeAward_frame n s) (byOwners_takeAward n s).levels
  lost := .inr fun n s => emergencyLaw_of_levels (takeLost_frame n s) (byOwners_takeLost n s).levels
  withdraw := .inr fun n s => emergencyLaw_of_levels (takeWithdraw_frame n s) (byOwners_takeWithdraw n s).levels
  jobCancel := .inr fun n s => emergencyLaw_of_levels (cancelJob_frame n s) (byOwners_cancelJob n s).levels
  poll := .inr fun s => emergencyLaw_of_levels (refreshStatus_frame .poll s) (byOwners_refreshStatus .poll s).levels
  message := .inr fun a n c x s _ => emergencyLaw_of_levels (takeMessage_frame a n c x s) (byOwners_takeMessage a n c x s).levels
  alertSeen := .inr takeAlertSeen_keeps_emergencyLaw
  standDown := .inr takeStandDown_keeps_emergencyLaw
  beaconHold := .inr takeBeaconHold_keeps_emergencyLaw
  levels := .inr takeLevels_keeps_emergencyLaw
  armed := .inr takeArmed_keeps_emergencyLaw
  stuck := .inr takeStuck_keeps_emergencyLaw
  cancelExpiry := .inr fun s law _ => takeCancelExpiry_keeps_emergencyLaw s law
  cycleStart := .inr takeCycleStart_keeps_emergencyLaw
  burst := .inr takeBurst_keeps_emergencyLaw
  statusInterval := .inr fun s => emergencyLaw_of_levels (takeStatusInterval_frame s) (byOwners_takeStatusInterval s).levels
  presenceExpiry := .inr fun s => emergencyLaw_of_levels (takePresenceExpiry_frame s) (byOwners_takePresenceExpiry s).levels
  awardExpiry := .inr fun n s => emergencyLaw_of_levels (takeAwardExpiry_frame n s) (byOwners_takeAwardExpiry n s).levels
  down s law := emergencyLaw_goDown law.record
  abandoned reach s law := emergencyLaw_goDown (warmSteps_recordLawful reach s law.record)
  cold s := by simp [EmergencyLaw, coldStart, State.reset, AlarmUnit.reset, EmergencyRecord.cold, Radio.reset, levelsInBounds_default]
  warm := warmStart_keeps_emergencyLaw

/-- Settles O12: the law of the emergency is kept by every owner that touches the Alarm Unit, the levels or the supply. -/
theorem emergencyLawIsKept : Obligations.EmergencyLawIsKept := keeps_of_owners (emergencyLaw_beyond.keptByOwners emergencyLaw_depends)

end Sys2Proof.Machine
end

section
/-! PROOFS. The law of the Uplink Queue and of the transmitter (R149, R154 to R156, R162, R163), and how every change of the queue keeps it. -/

namespace Sys2Proof.Machine

open Sys2Proof

/-! ## The law, by the queue and by the transmitter -/

/-- The entry that a transmission carries. -/
def TxKind.carries : TxKind → Option Nat
  | .entry n => some n
  | .reservationRequest => none
  | .blind => none

/-- The arrival order of the entry whose transmission is in progress, of a Radio Link. -/
def Radio.sending (r : Radio) : Option Nat := (r.tx.map Transmission.kind).bind TxKind.carries

theorem sendingEntry_eq (s : State) : sendingEntry s = s.radio.sending := by
  unfold sendingEntry Radio.sending
  rcases s.radio.tx.map Transmission.kind with _ | _ | _ | _ <;> rfl

theorem slotTransmission_eq_false (s : State) : slotTransmission s = false ↔ ∀ k ∈ s.radio.tx.map Transmission.kind, k = .blind := by
  unfold slotTransmission
  rcases s.radio.tx.map Transmission.kind with _ | _ | _ | _ <;> simp

/-- What the law says of the queue, with the next arrival order and the entry whose transmission is in progress. -/
structure QueueLawful (q : List Entry) (next : Nat) (sending : Option Nat) : Prop where
  general : q.countP (fun e => !reservedKind e.kind) ≤ 8
  reserved : ∀ k, reservedKind k = true → q.countP (fun e => decide (e.kind = k)) ≤ 1
  sorted : (q.map Entry.arrival).Pairwise (· < ·)
  each : ∀ e ∈ q, e.arrival < next ∧ e.lawful = true ∧ (e.state = .sending ↔ sending = some e.arrival)
  held : ∀ n ∈ sending.toList, ∃ e ∈ q, e.arrival = n
  seqs : (q.filterMap Entry.seq).Nodup
  bound : ∀ n ∈ q.filterMap Entry.seq, n < 16

/-- What it says of the link and the transmitter. -/
structure LinkLawful (r : Radio) : Prop where
  plan : r.plan.isSome ↔ r.link ≠ .lost
  timer : r.linkDue.isSome ↔ r.link ≠ .lost
  quiet : r.link = .lost → ∀ k ∈ r.tx.map Transmission.kind, k = .blind
  slots : r.link ≠ .lost → r.tx.map Transmission.kind ≠ some .blind ∧ r.blindWaiting = []
  waiting : r.blindWaiting ≠ [] → r.tx.isSome
  seq : r.nextSeq < 16

/-- The law, of a Radio Link. -/
def RadioLawful (r : Radio) : Prop := QueueLawful r.queue r.nextArrival r.sending ∧ LinkLawful r

theorem queueLaw_iff (s : State) : QueueLaw s ↔ RadioLawful s.radio := by
  have kinds : (∀ k ∈ [Kind.alert, .accept, .fareTotal, .status], s.radio.queue.countP (fun e => decide (e.kind = k)) ≤ 1) ↔
      ∀ k, reservedKind k = true → s.radio.queue.countP (fun e => decide (e.kind = k)) ≤ 1 := by
    refine forall_congr' fun k => ?_
    cases k <;> simp [reservedKind]
  unfold QueueLaw
  rw [kinds, sendingEntry_eq, slotTransmission_eq_false]
  constructor
  · rintro ⟨h1, h2, h3, h4, h5, h6, h7, h8, h9, h10, h11, h12, h13⟩
    exact ⟨⟨h1, h2, h3, h4, h5, h11, h12⟩, ⟨h6, h7, h8, h9, h10, h13⟩⟩
  · rintro ⟨⟨h1, h2, h3, h4, h5, h11, h12⟩, ⟨h6, h7, h8, h9, h10, h13⟩⟩
    exact ⟨h1, h2, h3, h4, h5, h6, h7, h8, h9, h10, h11, h12, h13⟩

/-! ## A lawful entry -/

/-- The law of an entry, in its parts. -/
theorem Entry.lawful_iff (e : Entry) : e.lawful = true ↔
    (e.state ≠ .sending → e.removed = false ∧ e.refreshed = false ∧ e.deferred = none) ∧
    (∀ c ∈ e.deferred, e.removed = true ∧ contentKind c = e.kind) ∧
    (if e.state = .backoff then 1 ≤ e.backoff ∧ e.backoff ≤ 15 else e.backoff = 0) ∧ overLimit e.kind e.retry = false := by
  unfold Entry.lawful
  cases e.deferred <;> by_cases h : e.state = .sending <;> by_cases hb : e.state = .backoff <;> simp_all [within, and_assoc]

/-- No kind is past its limit at retry count 0. -/
@[simp] theorem overLimit_zero (k : Kind) : overLimit k 0 = false := by cases k <;> rfl

theorem newEntry_lawful (c : Content) (n : Nat) : (newEntry c n).lawful = true := by
  simp [Entry.lawful_iff, newEntry]

section
variable {q : List Entry} {next : Nat} {sending : Option Nat}

/-- Two entries of one arrival order are one. -/
theorem QueueLawful.unique (law : QueueLawful q next sending) {e x : Entry} (he : e ∈ q) (hx : x ∈ q) (same : x.arrival = e.arrival) : x = e :=
  List.inj_on_of_nodup_map (law.sorted.imp Nat.ne_of_lt) hx he same

/-! ## Every change of the queue -/

theorem filterMap_map_sublist {α β : Type} (f : α → Option α) (g : α → β) (same : ∀ a, ∀ x ∈ f a, g x = g a) (l : List α) :
    ((l.filterMap f).map g).Sublist (l.map g) := by
  induction l with
  | nil => simp
  | cons a l ih =>
    cases h : f a with
    | none => simpa [h] using ih.cons (g a)
    | some x => simpa [h, same a x h] using ih.cons_cons (g a)

theorem filterMap_filterMap_sublist {α β : Type} (f : α → Option α) (g : α → Option β) (same : ∀ a, ∀ x ∈ f a, g x = none ∨ g x = g a)
    (l : List α) : ((l.filterMap f).filterMap g).Sublist (l.filterMap g) := by
  induction l with
  | nil => simp
  | cons a l ih =>
    cases h : f a with
    | none => cases hg : g a <;> simp [h, hg, ih, ih.cons]
    | some x =>
      obtain hx | hx := same a x h
      · cases hg : g a <;> simp [h, hg, hx, ih, ih.cons]
      · cases hg : g a <;> simp [h, hg, hx, ih]

theorem countP_filterMap_le {α : Type} (f : α → Option α) (p : α → Bool) (same : ∀ a, ∀ x ∈ f a, p x = p a) (l : List α) :
    (l.filterMap f).countP p ≤ l.countP p := by
  rw [List.countP_filterMap]
  refine List.countP_mono_left fun a _ h => ?_
  cases hf : f a with
  | none => simp [hf] at h
  | some x => rw [← same a x hf]; simpa [hf] using h

/-- Entries that leave, or change while they keep kind, arrival order and sequence or lose the last, keep the law of the queue, as far as each that
stays is lawful and SENDING exactly as the transmitter has it. -/
theorem QueueLawful.filterMap (law : QueueLawful q next sending) (f : Entry → Option Entry) {now : Option Nat}
    (kind : ∀ e, ∀ x ∈ f e, x.kind = e.kind ∧ x.arrival = e.arrival ∧ (x.seq = none ∨ x.seq = e.seq))
    (each : ∀ e ∈ q, ∀ x ∈ f e, x.lawful = true ∧ (x.state = .sending ↔ now = some x.arrival))
    (held : ∀ n ∈ now.toList, ∃ e ∈ q, e.arrival = n ∧ (f e).isSome) : QueueLawful (q.filterMap f) next now where
  general := (countP_filterMap_le f _ (fun e x hx => by rw [(kind e x hx).1]) q).trans law.general
  reserved k hk := (countP_filterMap_le f _ (fun e x hx => by rw [(kind e x hx).1]) q).trans (law.reserved k hk)
  sorted := law.sorted.sublist (filterMap_map_sublist f _ (fun e x hx => (kind e x hx).2.1) q)
  each x hx := by
    obtain ⟨e, he, hf⟩ := List.mem_filterMap.mp hx
    exact ⟨by rw [(kind e x hf).2.1]; exact (law.each e he).1, each e he x hf⟩
  held n hn := by
    obtain ⟨e, he, arrival, stays⟩ := held n hn
    obtain ⟨x, hx⟩ := Option.isSome_iff_exists.mp stays
    exact ⟨x, List.mem_filterMap.mpr ⟨e, he, hx⟩, (kind e x hx).2.1.trans arrival⟩
  seqs := law.seqs.sublist (filterMap_filterMap_sublist f _ (fun e x hx => (kind e x hx).2.2) q)
  bound n hn := law.bound n ((filterMap_filterMap_sublist f _ (fun e x hx => (kind e x hx).2.2) q).subset hn)

/-- Entries that change so, none leaving. -/
theorem QueueLawful.map (law : QueueLawful q next sending) (f : Entry → Entry) {now : Option Nat}
    (kind : ∀ e, (f e).kind = e.kind ∧ (f e).arrival = e.arrival ∧ ((f e).seq = none ∨ (f e).seq = e.seq))
    (each : ∀ e ∈ q, (f e).lawful = true ∧ ((f e).state = .sending ↔ now = some e.arrival))
    (held : ∀ n ∈ now.toList, ∃ e ∈ q, e.arrival = n) : QueueLawful (q.map f) next now := by
  rw [← List.filterMap_eq_map]
  refine law.filterMap _ (fun e x hx => ?_) (fun e he x hx => ?_) (by simpa using held)
  · obtain rfl : f e = x := by simpa using hx
    exact kind e
  · obtain rfl : f e = x := by simpa using hx
    rw [(kind e).2.1]
    exact each e he

/-- Entries that leave, the one whose transmission is in progress not among them. -/
theorem QueueLawful.filter (law : QueueLawful q next sending) (p : Entry → Bool) (stays : ∀ e ∈ q, e.state = .sending → p e = true) :
    QueueLawful (q.filter p) next sending := by
  rw [← List.filterMap_eq_filter]
  refine law.filterMap _ (fun e x hx => ?_) (fun e he x hx => ?_) (fun n hn => ?_)
  · obtain ⟨rfl, -⟩ : e = x ∧ p e = true := by simpa [Option.guard_eq_some'] using hx
    exact ⟨rfl, rfl, .inr rfl⟩
  · obtain ⟨rfl, -⟩ : e = x ∧ p e = true := by simpa [Option.guard_eq_some'] using hx
    exact (law.each e he).2
  · obtain ⟨e, he, arrival⟩ := law.held n hn
    refine ⟨e, he, arrival, ?_⟩
    have h := stays e he ((law.each e he).2.2.mpr (by rw [arrival]; simpa using hn))
    simp [Option.guard, h]

/-- A new entry at the end: of a general kind while fewer than 8 are held, of a reserved one while none is (R154). -/
theorem QueueLawful.append (law : QueueLawful q next sending) (c : Content)
    (general : reservedKind (contentKind c) = false → q.countP (fun e => !reservedKind e.kind) < 8)
    (reserved : reservedKind (contentKind c) = true → ∀ e ∈ q, e.kind ≠ contentKind c) :
    QueueLawful (q ++ [newEntry c next]) (next + 1) sending where
  general := by
    cases h : reservedKind (contentKind c) with
    | false =>
      have := general h
      simp [newEntry, Entry.kind, h, List.countP_append] at *
      omega
    | true => simpa [newEntry, Entry.kind, h, List.countP_append] using law.general
  reserved k hk := by
    by_cases h : contentKind c = k
    · subst h
      have none : q.countP (fun e => decide (e.kind = contentKind c)) = 0 := by simpa [List.countP_eq_zero] using reserved hk
      simp [List.countP_append, none, List.countP_cons]
      split <;> omega
    · simpa [newEntry, Entry.kind, h, List.countP_append] using law.reserved k hk
  sorted := by
    rw [List.map_append, List.pairwise_append]
    refine ⟨law.sorted, by simp, fun n hn m hm => ?_⟩
    obtain ⟨e, he, rfl⟩ := List.mem_map.mp hn
    obtain rfl : m = next := by simpa [newEntry] using hm
    exact (law.each e he).1
  each e he := by
    rcases List.mem_append.mp he with old | new
    · obtain ⟨before, rest⟩ := law.each e old
      exact ⟨by omega, rest⟩
    · obtain rfl : e = newEntry c next := by simpa using new
      refine ⟨by simp [newEntry], newEntry_lawful c next, by simp [newEntry], fun h => ?_⟩
      obtain ⟨x, hx, same⟩ := law.held next (by simpa [newEntry] using h)
      have := (law.each x hx).1
      omega
  held n hn := by
    obtain ⟨e, he, h⟩ := law.held n hn
    exact ⟨e, List.mem_append_left _ he, h⟩
  seqs := by simpa [newEntry] using law.seqs
  bound := by simpa [newEntry] using law.bound

/-- One entry changed in its place. -/
theorem QueueLawful.change (law : QueueLawful q next sending) {e : Entry} (he : e ∈ q) (f : Entry → Entry)
    (kind : ∀ e, (f e).kind = e.kind ∧ (f e).arrival = e.arrival ∧ ((f e).seq = none ∨ (f e).seq = e.seq))
    (lawful : (f e).lawful = true) (state : (f e).state = .sending ↔ e.state = .sending) :
    QueueLawful (q.map (fun x => if x.arrival = e.arrival then f x else x)) next sending := by
  refine law.map _ (fun x => ?_) (fun x hx => ?_) law.held
  · split
    · exact kind x
    · exact ⟨rfl, rfl, .inr rfl⟩
  · split
    · obtain rfl := law.unique he hx ‹_›
      exact ⟨lawful, state.trans (law.each x hx).2.2⟩
    · exact (law.each x hx).2

end

/-! ## The owners' acts -/

/-- What does not touch the link, the plan, the timer, the transmitter, the frames that wait and the next sequence keeps their law. -/
theorem LinkLawful.of_same {r r' : Radio} (law : LinkLawful r) (plan : r'.plan.isSome = r.plan.isSome) (link : r'.link = r.link) (timer : r'.linkDue = r.linkDue)
    (tx : r'.tx = r.tx) (waiting : r'.blindWaiting = r.blindWaiting) (seq : r'.nextSeq = r.nextSeq) : LinkLawful r' := by
  obtain ⟨h1, h2, h3, h4, h5, h6⟩ := law
  constructor <;> simpa only [plan, link, timer, tx, waiting, seq]

/-- A change of the queue and the arrival counter alone. -/
theorem RadioLawful.of_queue {r : Radio} {q : List Entry} {next : Nat} (law : RadioLawful r) (queue : QueueLawful q next r.sending) :
    RadioLawful { r with queue := q, nextArrival := next } := ⟨queue, law.2.of_same rfl rfl rfl rfl rfl rfl⟩

theorem RadioLawful.create {r : Radio} (law : RadioLawful r) (c : Content) (general : reservedKind (contentKind c) = false → r.generalFree = true)
    (reserved : reservedKind (contentKind c) = true → r.holds (contentKind c) = false) : RadioLawful (r.create c) := by
  refine law.of_queue (law.1.append c (fun h => ?_) (fun h e he same => ?_))
  · exact of_decide_eq_true (general h)
  · have := reserved h
    simp [Radio.holds] at this
    exact this e he same

/-- A refresh keeps the kind of an entry, its arrival order and its state while SENDING, and leaves it lawful. -/
theorem Entry.refresh_lawful (c : Content) (e : Entry) (law : e.lawful = true) (same : contentKind c = e.kind) :
    (e.refresh c).lawful = true ∧ ((e.refresh c).state = .sending ↔ e.state = .sending) := by
  rw [Entry.lawful_iff] at *
  unfold Entry.refresh Entry.leaving
  by_cases h : e.state = .sending <;> by_cases hr : e.removed = true <;> simp_all [Entry.kind]

theorem Entry.refresh_kind (c : Content) (e : Entry) (same : contentKind c = e.kind) :
    (e.refresh c).kind = e.kind ∧ (e.refresh c).arrival = e.arrival ∧ ((e.refresh c).seq = none ∨ (e.refresh c).seq = e.seq) := by
  unfold Entry.refresh
  split
  · exact ⟨rfl, rfl, .inr rfl⟩
  · split
    · exact ⟨same, rfl, .inr rfl⟩
    · exact ⟨same, rfl, .inl rfl⟩

/-- The refresh of those entries of a condition that are of the content's kind. -/
theorem QueueLawful.refresh {q : List Entry} {next : Nat} {sending : Option Nat} (law : QueueLawful q next sending) (c : Content)
    (p : Entry → Prop) [DecidablePred p] (kind : ∀ e, p e → contentKind c = e.kind) :
    QueueLawful (q.map (fun e => if p e then e.refresh c else e)) next sending := by
  refine law.map _ (fun e => ?_) (fun e he => ?_) law.held
  · split
    · exact Entry.refresh_kind c e (kind e ‹_›)
    · exact ⟨rfl, rfl, .inr rfl⟩
  · obtain ⟨-, lawful, state⟩ := law.each e he
    split
    · obtain ⟨lawful', state'⟩ := Entry.refresh_lawful c e lawful (kind e ‹_›)
      exact ⟨lawful', state'.trans state⟩
    · exact ⟨lawful, state⟩

/-- Every act of an owner keeps the law. -/
theorem OwnerAct.keeps {r r' : Radio} (act : OwnerAct r r') (law : RadioLawful r) : RadioLawful r' := by
  cases act with
  | general c _ kind room => exact law.create c (fun _ => room) (fun h => by simp [kind] at h)
  | reserved c _ kind =>
    unfold Radio.createReserved
    split
    · refine law.of_queue (law.1.map _ (fun e => ?_) (fun e he => ?_) law.1.held)
      · split <;> exact ⟨rfl, rfl, .inr rfl⟩
      · obtain ⟨-, lawful, state⟩ := law.1.each e he
        split
        · rename_i leaving
          simp_all [Entry.lawful_iff, Entry.leaving, Entry.kind]
        · exact ⟨lawful, state⟩
    · exact law.create c (fun h => by simp [kind] at h) (fun _ => Bool.eq_false_iff.mpr ‹¬_›)
  | refresh c _ kind =>
    unfold Radio.refreshReserved
    split
    · exact law.of_queue (law.1.refresh c _ (fun e h => h.symm))
    · exact law.create c (fun h => by simp [kind] at h) (fun _ => Bool.eq_false_iff.mpr ‹¬_›)
  | remove k =>
    refine law.of_queue (law.1.filterMap _ (fun e x hx => ?_) (fun e he x hx => ?_) (fun n hn => ?_))
    · split at hx
      · split at hx
        · obtain rfl := Option.some.inj hx
          exact ⟨rfl, rfl, .inr rfl⟩
        · cases hx
      · obtain rfl := Option.some.inj hx
        exact ⟨rfl, rfl, .inr rfl⟩
    · obtain ⟨-, lawful, state⟩ := law.1.each e he
      split at hx
      · split at hx
        · obtain rfl := Option.some.inj hx
          simp_all [Entry.lawful_iff, Entry.kind]
        · cases hx
      · obtain rfl := Option.some.inj hx
        exact ⟨lawful, state⟩
    · obtain ⟨e, he, arrival⟩ := law.1.held n hn
      refine ⟨e, he, arrival, ?_⟩
      have sending := (law.1.each e he).2.2.mpr (by rw [arrival]; simpa using hn)
      split <;> simp [sending]
  | receipt n st =>
    unfold Radio.queueReceipt
    split
    · refine law.of_queue (law.1.refresh _ _ (fun e h => ?_))
      unfold Entry.isReceiptOf at h
      split at h
      · simp [Entry.kind, contentKind, *]
      · simp at h
    · unfold Radio.createGeneral
      split
      · exact law.create _ (fun _ => ‹_›) (fun h => by simp [contentKind, reservedKind] at h)
      · exact law
  | position f => exact ⟨law.1, law.2.of_same rfl rfl rfl rfl rfl rfl⟩

theorem ByOwners.lawful {s t : State} (acts : ByOwners s t) (law : RadioLawful s.radio) : RadioLawful t.radio :=
  OwnerActs.keeps (fun _ _ act => act.keeps) acts law

end Sys2Proof.Machine
end

section
/-! PROOFS. The Radio Link's own work keeps the law of the Uplink Queue, and so does every step (09). -/

namespace Sys2Proof.Machine

open Sys2Proof

/-! ## The law and the transmitter -/

/-- A Radio Link that keeps queue, link, timer, plan, transmitter and sequence keeps the law. -/
theorem RadioLawful.of_same {r r' : Radio} (law : RadioLawful r) (queue : r'.queue = r.queue) (next : r'.nextArrival = r.nextArrival)
    (link : LinkLawful r → LinkLawful r') (tx : r'.tx = r.tx) : RadioLawful r' := by
  refine ⟨?_, link law.2⟩
  rw [queue, next, show r'.sending = r.sending by simp [Radio.sending, tx]]
  exact law.1

/-- The levels are none of the law's. -/
theorem RadioLawful.levels {r : Radio} (law : RadioLawful r) (l : Levels) : RadioLawful { r with levels := l } :=
  law.of_same rfl rfl (fun h => h.of_same rfl rfl rfl rfl rfl rfl) rfl

/-- While a slot transmission is in progress the link is not LOST, and no blind frame waits. -/
theorem LinkLawful.slot {r : Radio} (law : LinkLawful r) {k : TxKind} (tx : r.tx.map Transmission.kind = some k) (slot : k ≠ .blind) :
    r.link ≠ .lost ∧ r.blindWaiting = [] := by
  have up : r.link ≠ .lost := fun lost => slot (law.quiet lost k tx)
  exact ⟨up, (law.slots up).2⟩

/-- While no frame goes out, none waits. -/
theorem LinkLawful.idle {r : Radio} (law : LinkLawful r) (tx : r.tx = none) : r.blindWaiting = [] := by
  by_contra h
  simpa [tx] using law.waiting h

theorem Radio.sending_of_idle {r : Radio} (tx : r.tx = none) : r.sending = none := by simp [Radio.sending, tx]

/-- The release of KEY after a slot transmission whose entry is settled: no frame waits, and none goes out. -/
theorem releaseKey_of_slot {s : State} (queue : QueueLawful s.radio.queue s.radio.nextArrival none) (law : LinkLawful s.radio)
    {k : TxKind} (tx : s.radio.tx.map Transmission.kind = some k) (slot : k ≠ .blind) : RadioLawful (releaseKey s).radio := by
  obtain ⟨up, none⟩ := law.slot tx slot
  unfold releaseKey sendNextBlind
  simp only [none]
  exact ⟨queue, ⟨law.plan, law.timer, by simp, fun _ => ⟨by simp, rfl⟩, by simp, law.seq⟩⟩

/-- The release of KEY after a blind frame: the next one that waits goes out (R163). -/
theorem releaseKey_of_blind {s : State} (law : RadioLawful s.radio) (tx : s.radio.tx.map Transmission.kind = some .blind) :
    RadioLawful (releaseKey s).radio := by
  obtain ⟨queue, link⟩ := law
  have lost : s.radio.link = .lost := by
    by_contra up
    exact (link.slots up).1 tx
  have quiet : s.radio.sending = none := by simp [Radio.sending, tx, TxKind.carries]
  rw [quiet] at queue
  unfold releaseKey sendNextBlind
  cases waiting : s.radio.blindWaiting with
  | nil => exact ⟨queue, ⟨link.plan, link.timer, by simp, fun up => absurd lost up, fun h => absurd waiting h, link.seq⟩⟩
  | cons f rest => exact ⟨queue, ⟨link.plan, link.timer, by simp [transmit], fun up => absurd lost up, fun _ => rfl, link.seq⟩⟩

/-! ## The end of a transmission (R128, R155, R160) -/

/-- A list without one of its members that are counted counts fewer. -/
theorem countP_filter_lt {α : Type} {p q : α → Bool} {l : List α} {x : α} (hx : x ∈ l) (counted : q x = true) (left : p x = false) :
    (l.filter p).countP q < l.countP q := by
  rw [List.countP_eq_length_filter, List.countP_eq_length_filter, List.filter_filter, List.filter_congr (fun a _ => Bool.and_comm (q a) (p a)),
    ← List.filter_filter]
  exact length_filter_lt (List.mem_filter.mpr ⟨hx, counted⟩) left

/-- The entry whose transmission ends is no longer SENDING, as its owner left it or in the state given. -/
theorem settleEntry_queueLawful {r : Radio} (law : RadioLawful r) {n : Nat} {st : EntryState} (sending : r.sending = some n)
    (ended : st ≠ .sending) (calm : st ≠ .backoff) :
    QueueLawful (r.settleEntry n st).queue (r.settleEntry n st).nextArrival none := by
  obtain ⟨queue, -⟩ := law
  rw [sending] at queue
  obtain ⟨e, he, rfl⟩ := queue.held n (by simp)
  have found : r.queue.find? (fun x => decide (x.arrival = e.arrival)) = some e := by
    cases h : r.queue.find? (fun x => decide (x.arrival = e.arrival)) with
    | none => simpa using List.find?_eq_none.mp h e he
    | some x => rw [queue.unique he (List.mem_of_find?_eq_some h) (by simpa using List.find?_some h)]
  obtain ⟨-, lawful, state⟩ := queue.each e he
  rw [Entry.lawful_iff] at lawful
  obtain ⟨-, deferred, -, -⟩ := lawful
  have left : QueueLawful (r.queue.filter (fun x => decide (x.arrival ≠ e.arrival))) r.nextArrival none := by
    rw [← List.filterMap_eq_filter]
    refine queue.filterMap _ (fun x y hy => ?_) (fun x hx y hy => ?_) (by simp)
    · obtain ⟨rfl, -⟩ : x = y ∧ x.arrival ≠ e.arrival := by simpa [Option.guard_eq_some'] using hy
      exact ⟨rfl, rfl, .inr rfl⟩
    · obtain ⟨rfl, other⟩ : x = y ∧ x.arrival ≠ e.arrival := by simpa [Option.guard_eq_some'] using hy
      obtain ⟨-, lawful, state⟩ := queue.each x hx
      refine ⟨lawful, ?_⟩
      simp [state, Ne.symm other]
  unfold Radio.settleEntry
  rw [found]
  simp only
  split
  · rename_i removed
    split
    · rename_i c hc
      obtain ⟨-, same⟩ := deferred c hc
      have fewer : ∀ p : Entry → Bool, p e = true →
          (r.queue.filter (fun x => decide (x.arrival ≠ e.arrival))).countP p < r.queue.countP p := fun p hp => countP_filter_lt he hp (by simp)
      refine left.append c (fun kind => ?_) (fun kind x hx clash => ?_)
      · exact lt_of_lt_of_le (fewer _ (by simp [← same, kind])) queue.general
      · have one := queue.reserved _ kind
        have none := fewer (fun x => decide (x.kind = contentKind c)) (by simp [same])
        have some := List.countP_pos_iff (p := fun x => decide (x.kind = contentKind c)) |>.mpr ⟨x, hx, decide_eq_true clash⟩
        omega
    · exact left
  · rename_i stays
    have alone : e.deferred = none := Option.eq_none_iff_forall_ne_some.mpr fun c hc => stays (deferred c hc).1
    refine queue.map _ (fun x => ?_) (fun x hx => ?_) (by simp)
    · split
      · split
        · exact ⟨rfl, rfl, .inl rfl⟩
        · exact ⟨rfl, rfl, .inr rfl⟩
      · exact ⟨rfl, rfl, .inr rfl⟩
    · obtain ⟨-, lawful, state⟩ := queue.each x hx
      split
      · obtain rfl := queue.unique he hx ‹_›
        rw [Entry.lawful_iff] at lawful
        split
        · simp_all [Entry.lawful_iff, Entry.kind]
        · simp_all [Entry.lawful_iff, Entry.kind]
      · rename_i other
        exact ⟨lawful, by simp [state, Ne.symm other]⟩

/-- A slot transmission that ends, complete or cut off. -/
theorem releaseKey_settled {s : State} (law : RadioLawful s.radio) {n : Nat} {st : EntryState}
    (tx : s.radio.tx.map Transmission.kind = some (.entry n)) (ended : st ≠ .sending) (calm : st ≠ .backoff) {u : State}
    (settled : u.radio = s.radio.settleEntry n st) : RadioLawful (releaseKey u).radio := by
  have sending : s.radio.sending = some n := by simp [Radio.sending, tx, TxKind.carries]
  have queue := settleEntry_queueLawful law sending ended calm
  refine releaseKey_of_slot (k := .entry n) (by rwa [settled]) ?_ ?_ (by simp)
  · rw [settled, Radio.settleEntry_rest]
    exact law.2.of_same rfl rfl rfl rfl rfl rfl
  · rw [settled, Radio.settleEntry_rest]
    exact tx

/-- A RESERVATION REQUEST that ends. -/
theorem releaseKey_request {s : State} (law : RadioLawful s.radio) (tx : s.radio.tx.map Transmission.kind = some .reservationRequest) :
    RadioLawful (releaseKey s).radio := by
  have quiet : s.radio.sending = none := by simp [Radio.sending, tx, TxKind.carries]
  exact releaseKey_of_slot (quiet ▸ law.1) law.2 tx (by simp)

theorem cutOff_lawful {s : State} (law : RadioLawful s.radio) : RadioLawful (cutOff s).radio := by
  unfold cutOff
  split
  · exact releaseKey_settled law ‹_› (by simp) (by simp) rfl
  · exact releaseKey_request law ‹_›
  · exact law
  · exact law

theorem takeTransmissionEnd_lawful {s : State} (law : RadioLawful s.radio) : RadioLawful (takeTransmissionEnd s).radio := by
  unfold takeTransmissionEnd
  split
  · exact law
  · rename_i t tx
    have kind : s.radio.tx.map Transmission.kind = some t.kind := by rw [tx]; rfl
    split
    · rename_i n h
      exact releaseKey_settled law (by rw [kind, h]) (by simp) (by simp) rfl
    · rename_i h
      exact releaseKey_request (s := reach t.ends s) law (by rw [reach_radio, kind, h])
    · exact law

theorem takeBlindEnd_lawful {s : State} (law : RadioLawful s.radio) : RadioLawful (takeBlindEnd s).radio := by
  unfold takeBlindEnd
  split
  · exact law
  · rename_i t tx
    split
    · rename_i h
      exact releaseKey_of_blind (s := reach t.ends s) law (by rw [reach_radio, tx, Option.map_some, h])
    · exact law

/-! ## ALERTs (R138, R139, R163) -/

theorem sendBlind_lawful (status : Nat) {s : State} (law : RadioLawful s.radio) (lost : s.radio.link = .lost) :
    RadioLawful (sendBlind status s).radio := by
  obtain ⟨queue, link⟩ := law
  unfold sendBlind
  split
  · split
    · rename_i key
      exact ⟨queue, ⟨link.plan, link.timer, link.quiet, fun up => absurd lost up, fun _ => key, link.seq⟩⟩
    · rename_i key
      have idle : s.radio.tx = none := by simpa [keyAsserted] using key
      rw [Radio.sending_of_idle idle] at queue
      exact ⟨queue, ⟨link.plan, link.timer, by simp [transmit], fun up => absurd lost up, fun _ => rfl, link.seq⟩⟩
  · exact ⟨queue, link⟩

theorem makeAlert_lawful (cancelled : Bool) (status : Nat) {s : State} (law : RadioLawful s.radio) : RadioLawful (makeAlert cancelled status s).radio := by
  unfold makeAlert
  split
  · rename_i lost
    exact sendBlind_lawful status (OwnerAct.keeps (.remove .alert _ rfl) law) lost
  · exact OwnerAct.keeps (.refresh _ _ rfl) law
  · exact OwnerAct.keeps (.refresh _ _ rfl) law

theorem burst_lawful (c : BeaconCycle) {s : State} (law : RadioLawful s.radio) : RadioLawful (burst c s).radio := by
  unfold burst
  simp only
  split
  · exact law
  · exact makeAlert_lawful _ _ law

theorem beginMark_lawful {s : State} (law : RadioLawful s.radio) : RadioLawful (beginMark s).radio := burst_lawful _ (s := startCycle s.now s) law

theorem beginEmergency_lawful {s : State} (law : RadioLawful s.radio) : RadioLawful (beginEmergency s).radio :=
  beginMark_lawful (ByOwners.lawful (byOwners_recheck _) (s := enterEmergency (cutOff s)) ((cutOff_lawful law).levels _))

theorem escalate_lawful {s : State} (law : RadioLawful s.radio) : RadioLawful (escalate s).radio := by
  unfold escalate
  split
  · exact law
  · exact beginMark_lawful (s := changeSet .urgent (escalateRecord s)) law

theorem takeLevels_lawful (l0 l1 : Option Level) {s : State} (law : RadioLawful s.radio) : RadioLawful (takeLevels l0 l1 s).radio := by
  unfold takeLevels
  simp only
  split
  · unfold takePress
    split
    · exact escalate_lawful law
    · exact beginEmergency_lawful law
  · exact law

theorem takeBurst_lawful {s : State} (law : RadioLawful s.radio) : RadioLawful (takeBurst s).radio := by
  unfold takeBurst
  split
  · exact burst_lawful _ (s := reach _ s) law
  · exact law

theorem alarmCancel_lawful {s : State} (law : RadioLawful s.radio) : RadioLawful (alarmCancel s).1.radio := by
  unfold alarmCancel
  split
  · exact law
  · split
    · exact makeAlert_lawful _ _ (s := returnToNormal s) (law.levels _)
    · exact law
  · exact law

theorem takeStandDown_lawful {s : State} (law : RadioLawful s.radio) : RadioLawful (takeStandDown s).radio := by
  unfold takeStandDown
  split
  · exact OwnerAct.keeps (.remove .alert _ rfl) (law.levels (s.alarm.saved.getD s.radio.levels))
  · exact law

theorem setPriority_lawful (k v : Nat) {s : State} (law : RadioLawful s.radio) : RadioLawful (setPriority k v s).1.radio := by
  unfold setPriority
  split
  · exact law
  · simp only [done, writeLevel]
    split
    · exact law
    · exact law.levels _

/-! ## Acknowledgements, backoffs and the loss of the link (R149, R161, R162) -/

/-- Owners leave the transmitter as it is. -/
theorem ByOwners.tx {s t : State} (acts : ByOwners s t) : t.radio.tx = s.radio.tx := by
  refine OwnerActs.keeps (P := fun r => r.tx = s.radio.tx) (fun r r' act h => ?_) acts rfl
  rw [← h]
  cases act with
  | general => rfl
  | reserved c => rw [Radio.createReserved_rest]
  | refresh c => rw [Radio.refreshReserved_rest]
  | remove => rfl
  | receipt n st => rw [Radio.queueReceipt_rest]
  | position => rfl

theorem findEntry_some {n : Nat} {s : State} {e : Entry} (h : findEntry n s = some e) : e ∈ s.radio.queue ∧ e.arrival = n :=
  ⟨List.mem_of_find?_eq_some h, by simpa using List.find?_some h⟩

/-- An entry that is not SENDING may leave. -/
theorem dropEntry_lawful {s : State} (law : RadioLawful s.radio) {e : Entry} (he : e ∈ s.radio.queue) (idle : e.state ≠ .sending) :
    RadioLawful (dropEntry e.arrival s).radio := by
  refine law.of_queue (law.1.filter _ fun x hx sending => ?_)
  refine decide_eq_true fun same => idle ?_
  rwa [← law.1.unique he hx same]

/-- An entry may change in its place. -/
theorem changeEntry_lawful {s : State} (law : RadioLawful s.radio) {e : Entry} (he : e ∈ s.radio.queue) (f : Entry → Entry)
    (kind : ∀ e, (f e).kind = e.kind ∧ (f e).arrival = e.arrival ∧ ((f e).seq = none ∨ (f e).seq = e.seq))
    (lawful : (f e).lawful = true) (state : (f e).state = .sending ↔ e.state = .sending) : RadioLawful (changeEntry e.arrival f s).radio :=
  law.of_queue (law.1.change he f kind lawful state)

theorem Entry.backOff_lawful {e : Entry} (law : e.lawful = true) (idle : e.state ≠ .sending) {backoff : Nat} (short : backoff ≤ 15)
    (within : overLimit e.kind (e.retry + 1) = false) : (e.backOff backoff).lawful = true ∧ (e.backOff backoff).state ≠ .sending := by
  rw [Entry.lawful_iff] at *
  unfold Entry.backOff
  by_cases h : backoff = 0
  · simp_all [Entry.kind]
  · simp_all [Entry.kind]
    omega

theorem Entry.lower_lawful {e : Entry} (law : e.lawful = true) : e.lower.lawful = true ∧ (e.lower.state = .sending ↔ e.state = .sending) := by
  rw [Entry.lawful_iff] at *
  unfold Entry.lower
  by_cases h : e.state = .backoff
  · by_cases last : e.backoff ≤ 1
    · simp_all [Entry.kind]
    · obtain ⟨idle, deferred, backoff, within⟩ := law
      rw [if_pos h] at backoff
      rw [if_pos h, if_neg last]
      refine ⟨⟨idle, deferred, ?_, within⟩, Iff.rfl⟩
      simp only [h, if_true]
      omega
  · simpa [h] using law

theorem Entry.lower_kind (e : Entry) : e.lower.kind = e.kind ∧ e.lower.arrival = e.arrival ∧ (e.lower.seq = none ∨ e.lower.seq = e.seq) := by
  unfold Entry.lower
  split
  · split <;> exact ⟨rfl, rfl, .inr rfl⟩
  · exact ⟨rfl, rfl, .inr rfl⟩

theorem drawBackoff_le (r : Nat) (s : State) : drawBackoff r s ≤ 15 := by
  have bound : 2 ^ min r 4 ≤ 2 ^ 4 := Nat.pow_le_pow_right (by omega) (Nat.min_le_right r 4)
  have := Nat.mod_lt (Config.draw s.draws) (Nat.two_pow_pos (min r 4))
  unfold drawBackoff
  omega

theorem notAcknowledged_lawful (n : Nat) {s : State} (law : RadioLawful s.radio) :
    RadioLawful (notAcknowledged n s).radio ∧ (notAcknowledged n s).radio.tx = s.radio.tx := by
  unfold notAcknowledged
  split
  · rename_i e found
    obtain ⟨he, -⟩ := findEntry_some found
    split
    · rename_i awaiting
      have idle : e.state ≠ .sending := by simp [awaiting]
      obtain ⟨-, lawful, -⟩ := law.1.each e he
      have backsOff : ∀ b ≤ 15, overLimit e.kind (e.retry + 1) = false → ∀ u : State, u.radio = s.radio →
          RadioLawful (changeEntry e.arrival (Entry.backOff b) u).radio := fun b hb within u same => by
        obtain ⟨lawful', idle'⟩ := Entry.backOff_lawful lawful idle hb within
        rw [← same] at law he
        exact changeEntry_lawful law he _ (fun _ => ⟨rfl, rfl, .inr rfl⟩) lawful' (by simp [idle, idle'])
      unfold retryEntry
      split
      · rename_i alert
        exact ⟨backsOff 0 (by omega) (by simp [alert, overLimit, retryLimit]) s rfl, rfl⟩
      · split
        · have acts := byOwners_ownerFailed e (dropEntry e.arrival s)
          exact ⟨acts.lawful (dropEntry_lawful law he idle), acts.tx⟩
        · exact ⟨backsOff _ (drawBackoff_le _ s) (Bool.eq_false_iff.mpr ‹¬_›) _ rfl, rfl⟩
    · exact ⟨law, rfl⟩
  · exact ⟨law, rfl⟩

theorem takeAck_lawful {s : State} (ack : Nat × Nat) (law : RadioLawful s.radio) :
    RadioLawful (takeAck s ack).radio ∧ (takeAck s ack).radio.tx = s.radio.tx := by
  unfold takeAck
  split
  · split
    · rename_i e found
      have he := List.mem_of_find?_eq_some found
      have idle : e.state ≠ .sending := by
        have := List.find?_some found
        simp_all
      have acts := byOwners_ownerAcknowledged e (dropEntry e.arrival s)
      exact ⟨acts.lawful (dropEntry_lawful law he idle), acts.tx⟩
    · exact ⟨law, rfl⟩
  · exact ⟨law, rfl⟩

/-- What each of a row of settlements keeps. -/
theorem foldl_lawful {α : Type} {f : State → α → State}
    (one : ∀ a s, RadioLawful s.radio → RadioLawful (f s a).radio ∧ (f s a).radio.tx = s.radio.tx) (l : List α) {s : State}
    (law : RadioLawful s.radio) : RadioLawful (l.foldl f s).radio ∧ (l.foldl f s).radio.tx = s.radio.tx := by
  induction l generalizing s with
  | nil => exact ⟨law, rfl⟩
  | cons a l ih =>
    obtain ⟨law', tx⟩ := one a s law
    obtain ⟨law'', tx'⟩ := ih law'
    exact ⟨law'', tx'.trans tx⟩

theorem settleAcks_lawful (h : HeadFields) {s : State} (law : RadioLawful s.radio) :
    RadioLawful (settleAcks h s).radio ∧ (settleAcks h s).radio.tx = s.radio.tx := by
  have lowered : RadioLawful (lowerBackoffs s).radio := by
    refine law.of_queue (law.1.map _ Entry.lower_kind (fun e he => ?_) law.1.held)
    obtain ⟨-, lawful, state⟩ := law.1.each e he
    obtain ⟨lawful', state'⟩ := Entry.lower_lawful lawful
    exact ⟨lawful', state'.trans state⟩
  obtain ⟨acked, tx⟩ := foldl_lawful (fun a x lx => takeAck_lawful a lx) (if missedHead h s then [] else h.acks) lowered
  obtain ⟨settled, tx'⟩ := foldl_lawful (f := fun x n => notAcknowledged n x) (fun n x lx => notAcknowledged_lawful n lx) (awaitingEntries s) acked
  exact ⟨settled, tx'.trans tx⟩

theorem linkAtHead_ne_lost (h : HeadFields) (s : State) : linkAtHead h s ≠ .lost := by
  unfold linkAtHead
  split <;> simp

theorem setLink_radio (l : LinkState) (s : State) : (setLink l s).radio = { s.radio with link := l } := by
  unfold setLink
  split
  · rename_i same
    rw [← same]
  · rfl

/-- A CYCLE HEAD is heard only while no frame goes out (R144), and then the link comes up with a plan and its timer (R149). -/
theorem takeHead_lawful (h : HeadFields) {s : State} (law : RadioLawful s.radio) (silent : s.radio.tx = none) : RadioLawful (takeHead h s).radio := by
  obtain ⟨⟨queue, link⟩, tx⟩ := settleAcks_lawful h law
  rw [silent] at tx
  have up := linkAtHead_ne_lost h (settleAcks h s)
  simp only [takeHead, openCycle]
  rw [setLink_radio]
  exact ⟨queue, ⟨by simp [up], by simp [up], fun lost => absurd lost up, fun _ => ⟨by simp [tx], link.idle tx⟩, link.waiting, link.seq⟩⟩

theorem takeBackoffEnd_lawful (n : Nat) {s : State} (law : RadioLawful s.radio) : RadioLawful (takeBackoffEnd n s).radio := by
  unfold takeBackoffEnd
  split
  · rename_i e found
    obtain ⟨he, rfl⟩ := findEntry_some found
    split
    · obtain ⟨lawful, state⟩ := Entry.lower_lawful (law.1.each e he).2.1
      exact changeEntry_lawful law he _ Entry.lower_kind lawful state
    · exact law
  · exact law

theorem takeRetryLimit_lawful (n : Nat) {s : State} (law : RadioLawful s.radio) : RadioLawful (takeRetryLimit n s).radio := by
  unfold takeRetryLimit
  split
  · rename_i e found
    obtain ⟨he, rfl⟩ := findEntry_some found
    split
    · rename_i limit
      obtain ⟨-, lawful, -⟩ := law.1.each e he
      rw [Entry.lawful_iff] at lawful
      obtain ⟨-, -, -, within⟩ := lawful
      have idle : e.state ≠ .sending := by
        intro sending
        simp [limitReached, within, sending] at limit
      exact (byOwners_ownerFailed e _).lawful (dropEntry_lawful law he idle)
    · exact law
  · exact law

/-- The link is lost: no plan, no timer, and what awaited an acknowledgement is READY (R149). -/
theorem takeLinkLost_lawful {s : State} (law : RadioLawful s.radio) : RadioLawful (takeLinkLost s).radio := by
  unfold takeLinkLost
  split
  · exact law
  · rename_i due timer
    split
    · exact law
    · rename_i silent
      rw [Bool.not_eq_true, slotTransmission_eq_false] at silent
      simp only [loseLink, setLink_radio]
      refine ⟨law.1.map _ (fun e => ?_) (fun e he => ?_) law.1.held, ⟨by simp, by simp, fun _ => silent, by simp, law.2.waiting, law.2.seq⟩⟩
      · unfold Entry.loseLink
        split <;> exact ⟨rfl, rfl, .inr rfl⟩
      · obtain ⟨-, lawful, state⟩ := law.1.each e he
        unfold Entry.loseLink
        split
        · simp_all [Entry.lawful_iff, Entry.kind, Radio.sending]
        · exact ⟨lawful, state⟩

/-! ## The slots (R155 to R160) -/

/-- The queue holds 12 entries at most (R154). -/
theorem QueueLawful.length_le {q : List Entry} {next : Nat} {sending : Option Nat} (law : QueueLawful q next sending) : q.length ≤ 12 := by
  have split : q.length = q.countP (fun e => !reservedKind e.kind) + q.countP (fun e => decide (e.kind = .alert)) +
      q.countP (fun e => decide (e.kind = .accept)) + q.countP (fun e => decide (e.kind = .fareTotal)) +
      q.countP (fun e => decide (e.kind = .status)) := by
    induction q with
    | nil => rfl
    | cons e q _ =>
      clear law
      induction e :: q with
      | nil => rfl
      | cons x l ih =>
        simp only [List.length_cons, List.countP_cons, ih]
        cases x.kind <;> simp [reservedKind] <;> omega
  have := law.general
  have := law.reserved .alert rfl
  have := law.reserved .accept rfl
  have := law.reserved .fareTotal rfl
  have := law.reserved .status rfl
  omega

/-- Two entries do not hold one sequence. -/
def SeqApart (a b : Entry) : Prop := ∀ n, a.seq = some n → b.seq ≠ some n

theorem seqApart_iff (q : List Entry) : (q.filterMap Entry.seq).Nodup ↔ q.Pairwise SeqApart := by
  rw [List.Nodup, List.pairwise_filterMap]
  exact ⟨fun h => h.imp fun h n ha hb => h n ha n hb rfl, fun h => h.imp fun {_ _} apart n ha m hb same => apart n ha (by rw [hb, same])⟩

theorem QueueLawful.seqs_apart {q : List Entry} {next : Nat} {sending : Option Nat} (law : QueueLawful q next sending) : q.Pairwise SeqApart :=
  (seqApart_iff q).mp law.seqs

/-- Two entries of one sequence are one (R156). -/
theorem QueueLawful.seq_unique {q : List Entry} {next : Nat} {sending : Option Nat} (law : QueueLawful q next sending) {e x : Entry} (he : e ∈ q)
    (hx : x ∈ q) {n : Nat} (hn : e.seq = some n) (same : x.seq = some n) : x = e := by
  by_contra other
  have symmetric : Std.Symm SeqApart := ⟨fun a b h m hm hk => h m hk hm⟩
  exact law.seqs_apart.forall hx he other n same hn

/-- The sequence under which an entry goes out is 0 to 15, and no other entry holds it (R156). -/
theorem sequenceFor_fresh {r : Radio} (law : RadioLawful r) {e : Entry} (he : e ∈ r.queue) :
    sequenceFor r e < 16 ∧ ∀ x ∈ r.queue, x.arrival ≠ e.arrival → x.seq ≠ some (sequenceFor r e) := by
  unfold sequenceFor
  cases h : e.seq with
  | some n =>
    refine ⟨law.1.bound n (List.mem_filterMap.mpr ⟨e, he, h⟩), fun x hx other same => other ?_⟩
    rw [law.1.seq_unique he hx h same]
  | none =>
    obtain ⟨k, -, first, free, -⟩ := freeSeq_first r.queue r.nextSeq (by have := law.1.length_le; omega) law.2.seq
    simp only [Option.getD_none]
    rw [first]
    exact ⟨Nat.mod_lt _ (by omega), fun x hx _ => free x hx⟩

/-- An entry given a sequence. -/
def Entry.under (n : Nat) (e : Entry) : Entry := { e with seq := some n }

/-- One entry may be given a sequence that no other holds. -/
theorem QueueLawful.assign {q : List Entry} {next : Nat} {sending : Option Nat} (law : QueueLawful q next sending) {a n : Nat}
    (small : n < 16) (free : ∀ x ∈ q, x.arrival ≠ a → x.seq ≠ some n) :
    QueueLawful (q.map (fun x => if x.arrival = a then x.under n else x)) next sending := by
  have kind : ∀ x : Entry, (if x.arrival = a then x.under n else x).kind = x.kind := fun x => by split <;> rfl
  have arrival : ∀ x : Entry, (if x.arrival = a then x.under n else x).arrival = x.arrival := fun x => by split <;> rfl
  have seq : ∀ x : Entry, (if x.arrival = a then x.under n else x).seq = if x.arrival = a then some n else x.seq := fun x => by split <;> rfl
  constructor
  · simpa only [List.countP_map, Function.comp_def, kind] using law.general
  · simpa only [List.countP_map, Function.comp_def, kind] using law.reserved
  · simpa only [List.map_map, Function.comp_def, arrival] using law.sorted
  · intro y hy
    obtain ⟨x, hx, rfl⟩ := List.mem_map.mp hy
    rw [arrival]
    split <;> exact law.each x hx
  · intro m hm
    obtain ⟨x, hx, h⟩ := law.held m hm
    exact ⟨_, List.mem_map_of_mem hx, (arrival x).trans h⟩
  · rw [seqApart_iff, List.pairwise_map]
    have both := (List.pairwise_map.mp law.sorted).and law.seqs_apart
    refine both.imp_of_mem fun {x y} hx hy ⟨before, apart⟩ m hxm hym => ?_
    rw [seq] at hxm hym
    split at hxm
    · rename_i first
      rw [if_neg (by omega)] at hym
      exact free y hy (by omega) (hym.trans hxm.symm)
    · split at hym
      · exact free x hx ‹_› (hxm.trans hym.symm)
      · exact apart m hxm hym
  · intro m hm
    obtain ⟨y, hy, h⟩ := List.mem_filterMap.mp hm
    obtain ⟨x, hx, rfl⟩ := List.mem_map.mp hy
    rw [seq] at h
    split at h
    · obtain rfl := Option.some.inj h
      exact small
    · exact law.bound m (List.mem_filterMap.mpr ⟨x, hx, h⟩)

/-- An entry READY that goes out, under a sequence that no other holds. -/
theorem QueueLawful.sent {q : List Entry} {next : Nat} (law : QueueLawful q next none) {e : Entry} (he : e ∈ q) (ready : e.state = .ready)
    {n : Nat} (small : n < 16) (free : ∀ x ∈ q, x.arrival ≠ e.arrival → x.seq ≠ some n) (payload : List Byte) (failed : Bool) :
    QueueLawful (q.map (fun x => if x.arrival = e.arrival then x.sent n payload failed else x)) next (some e.arrival) := by
  have going := (law.assign small free).map (fun x => if x.arrival = e.arrival then { x with payload := payload, state := .sending, carriesFailed := failed } else x)
    (now := some e.arrival)
    (fun x => by split <;> exact ⟨rfl, rfl, .inr rfl⟩)
    (fun y hy => by
      obtain ⟨x, hx, rfl⟩ := List.mem_map.mp hy
      obtain ⟨-, lawful, state⟩ := law.each x hx
      by_cases same : x.arrival = e.arrival
      · obtain rfl := law.unique he hx same
        simp_all [Entry.lawful_iff, Entry.under, Entry.kind]
      · simp only [if_neg same]
        exact ⟨lawful, by simp [state, Ne.symm same]⟩)
    (fun m hm => ⟨e.under n, List.mem_map.mpr ⟨e, he, by simp⟩, by simpa [Entry.under, eq_comm] using hm⟩)
  rw [List.map_map] at going
  convert going using 2
  funext x
  by_cases same : x.arrival = e.arrival
  · simp [Function.comp, same, Entry.under, Entry.sent]
  · simp [Function.comp, same]

/-- An entry READY goes out: SENDING, under a sequence that no other holds. -/
theorem sendEntry_lawful {s : State} (law : RadioLawful s.radio) (up : s.radio.link ≠ .lost) (silent : s.radio.tx = none) {e : Entry}
    (he : e ∈ s.radio.queue) (ready : e.state = .ready) : RadioLawful (sendEntry e s).radio := by
  obtain ⟨small, free⟩ := sequenceFor_fresh law he
  obtain ⟨queue, link⟩ := law
  rw [Radio.sending_of_idle silent] at queue
  refine ⟨queue.sent he ready small free _ _, ⟨link.plan, link.timer, fun lost => absurd lost up, fun _ => ⟨by simp [sendEntry, transmit], (link.slots up).2⟩,
    fun _ => rfl, ?_⟩⟩
  simp only [sendEntry, transmit]
  split
  · exact link.seq
  · omega

theorem transmit_request_lawful {s : State} (law : RadioLawful s.radio) (up : s.radio.link ≠ .lost) (silent : s.radio.tx = none)
    (frame : List Byte) : RadioLawful (transmit .reservationRequest frame s).radio := by
  obtain ⟨queue, link⟩ := law
  rw [Radio.sending_of_idle silent] at queue
  exact ⟨queue, ⟨link.plan, link.timer, fun lost => absurd lost up, fun _ => ⟨by simp [transmit], (link.slots up).2⟩, fun _ => rfl, link.seq⟩⟩

/-- The plan may change, but not end. -/
theorem setPlan_lawful {s : State} (law : RadioLawful s.radio) (p : Plan) (planned : s.radio.plan.isSome) : RadioLawful (setPlan p s).radio :=
  law.of_same rfl rfl (fun h => h.of_same (by simp [setPlan, planned]) rfl rfl rfl rfl rfl) rfl

theorem takeContention_lawful {s : State} (law : RadioLawful s.radio) : RadioLawful (takeContention s).radio := by
  unfold takeContention
  split
  · exact law
  · rename_i p plan
    split
    · exact law
    · rename_i open_
      have silent : s.radio.tx = none := by
        cases h : s.radio.tx <;> simp_all
      have planned : s.radio.plan.isSome := by simp [plan]
      have up := law.2.plan.mp planned
      have set := setPlan_lawful (s := reach p.contentionStart s) law { p with contentionDone := true } planned
      unfold sendContention
      split
      · split
        · rename_i e first
          have candidate := firstOf_mem _ _ _ first
          simp only [contentionCandidates, List.mem_filter, Bool.and_eq_true, decide_eq_true_eq] at candidate
          obtain ⟨he, ⟨ready, -⟩, -⟩ := candidate
          exact sendEntry_lawful set up silent he ready
        · split
          · exact transmit_request_lawful set up silent _
          · exact set
      · exact set

theorem takeReserved_lawful (j : Nat) {s : State} (law : RadioLawful s.radio) : RadioLawful (takeReserved j s).radio := by
  unfold takeReserved
  split
  · exact law
  · rename_i p plan
    split
    · rename_i granted
      obtain ⟨-, silent, -⟩ := granted
      rw [Option.isNone_iff_eq_none] at silent
      have planned : s.radio.plan.isSome := by simp [plan]
      have up := law.2.plan.mp planned
      have set := setPlan_lawful (s := reach (p.reservedStart j) s) law { p with contentionDone := true, nextReserved := j + 1 } planned
      unfold sendReserved
      split
      · split
        · rename_i e first
          have candidate := firstOf_mem _ _ _ first
          simp only [reservedCandidates, List.mem_filter, Bool.and_eq_true, decide_eq_true_eq] at candidate
          obtain ⟨he, ready, -⟩ := candidate
          exact sendEntry_lawful set up silent he ready
        · exact set
      · exact set
    · exact law

/-! ## Every step -/

theorem queueLaw_depends : DependsOn [.radio] QueueLaw := fun s t same law => by
  rw [queueLaw_iff] at *
  rwa [show t.radio = s.radio from same .radio (by simp)]

/-- What keeps the law of a Radio Link keeps it of the state. -/
theorem queueLaw_of_radio {s t : State} (kept : RadioLawful s.radio → RadioLawful t.radio) (law : QueueLaw s) : QueueLaw t :=
  (queueLaw_iff t).mpr (kept ((queueLaw_iff s).mp law))

/-- So do owners' acts. -/
theorem queueLaw_of_owners {s t : State} (acts : ByOwners s t) (law : QueueLaw s) : QueueLaw t := queueLaw_of_radio acts.lawful law

theorem radioLawful_reset : RadioLawful Radio.reset := by
  refine ⟨⟨?_, ?_, ?_, ?_, ?_, ?_, ?_⟩, ⟨?_, ?_, ?_, ?_, ?_, ?_⟩⟩ <;> simp [Radio.reset, Radio.sending]

/-- A warm start leaves an empty queue, then a FARE TOTAL and the beacon's first ALERT (R179). -/
theorem warmStart_lawful (s : State) : RadioLawful (warmStart s).radio := by
  have steps : RadioLawful (warmSteps .emergency s).radio := by
    simp only [warmSteps, continueEmergency]
    split
    · rw [noticeEmergency_radio]
      simp only [(beforeEmergency s).2]
      exact radioLawful_reset.levels _
    · rw [(beforeEmergency s).2]
      exact radioLawful_reset
  have fare := (byOwners_ensureFareTotal _).lawful steps
  unfold warmStart restartBeacon
  split
  · exact beginMark_lawful fare
  · exact fare

/-- What the law of the queue takes of each owner that touches the Radio Link. -/
theorem queueLaw_beyond : KeptBeyond [.radio] QueueLaw where
  sign := .inr fun s => queueLaw_of_owners (byOwners_terminalSign s)
  flagDown := .inr fun m n s => queueLaw_of_owners (byOwners_flagDown m n s)
  clear := .inr fun s => queueLaw_of_owners (byOwners_clear s)
  signOn := .inr fun s => queueLaw_of_owners (byOwners_signOn s)
  signOff := .inr fun s => queueLaw_of_owners (byOwners_signOff s)
  soonClear := .inr fun n s => queueLaw_of_owners (byOwners_soonClear n s)
  cancelClear := .inr fun s => queueLaw_of_owners (byOwners_cancelClear s)
  noShow := .inr fun s => queueLaw_of_owners (byOwners_noShow s)
  accept := .inr fun n s => queueLaw_of_owners (byOwners_accept n s)
  decline := .inr fun n s => queueLaw_of_owners (byOwners_decline n s)
  markRead := .inr fun n s => queueLaw_of_owners (byOwners_markRead n s)
  reply := .inr fun n c x s => queueLaw_of_owners (byOwners_reply n c x s)
  sendMessage := .inr fun c x s => queueLaw_of_owners (byOwners_sendMessage none c x s)
  setPosition := .inr fun a b s => queueLaw_of_owners (byOwners_setPosition a b s)
  offer := .inr fun a o s law _ => queueLaw_of_owners (byOwners_takeOffer a o s) law
  award := .inr fun n s => queueLaw_of_owners (byOwners_takeAward n s)
  lost := .inr fun n s => queueLaw_of_owners (byOwners_takeLost n s)
  withdraw := .inr fun n s => queueLaw_of_owners (byOwners_takeWithdraw n s)
  jobCancel := .inr fun n s => queueLaw_of_owners (byOwners_cancelJob n s)
  poll := .inr fun s => queueLaw_of_owners (byOwners_refreshStatus .poll s)
  message := .inr fun a n c x s _ => queueLaw_of_owners (byOwners_takeMessage a n c x s)
  statusInterval := .inr fun s => queueLaw_of_owners (byOwners_takeStatusInterval s)
  presenceExpiry := .inr fun s => queueLaw_of_owners (byOwners_takePresenceExpiry s)
  awardExpiry := .inr fun n s => queueLaw_of_owners (byOwners_takeAwardExpiry n s)
  setPriority := .inr fun k v _ => queueLaw_of_radio (setPriority_lawful k v)
  alarmCancel := .inr fun _ law _ => queueLaw_of_radio alarmCancel_lawful law
  head := .inr fun h s law _ silent => queueLaw_of_radio (fun lawful => takeHead_lawful h lawful (by simpa [keyAsserted] using silent)) law
  backoffEnd := .inr fun n _ => queueLaw_of_radio (takeBackoffEnd_lawful n)
  retryLimit := .inr fun n _ => queueLaw_of_radio (takeRetryLimit_lawful n)
  linkLost := .inr fun _ => queueLaw_of_radio takeLinkLost_lawful
  contention := .inr fun _ => queueLaw_of_radio takeContention_lawful
  reserved := .inr fun n _ => queueLaw_of_radio (takeReserved_lawful n)
  txEnd := .inr fun _ => queueLaw_of_radio takeTransmissionEnd_lawful
  blindEnd := .inr fun _ => queueLaw_of_radio takeBlindEnd_lawful
  standDown := .inr fun _ law _ => queueLaw_of_radio takeStandDown_lawful law
  levels := .inr fun a b _ law _ => queueLaw_of_radio (takeLevels_lawful a b) law
  burst := .inr fun _ => queueLaw_of_radio takeBurst_lawful
  down s _ := (queueLaw_iff _).mpr radioLawful_reset
  abandoned _ _ _ := (queueLaw_iff _).mpr radioLawful_reset
  cold _ := (queueLaw_iff _).mpr radioLawful_reset
  warm s _ := (queueLaw_iff _).mpr (warmStart_lawful s)

/-- Settles O13: the law of the Uplink Queue and the transmitter is kept by the owners' acts and by the Radio Link's own work. -/
theorem queueLawIsKept : Obligations.QueueLawIsKept := keeps_of_owners (queueLaw_beyond.keptByOwners queueLaw_depends)

end Sys2Proof.Machine
end

section
/-! PROOFS. The law of the Fare Engine (R5, R7, R12, R14, R23, R24, R38, R42) is kept by every step. -/

namespace Sys2Proof.Machine

open Sys2Proof

/-! ## Images in range (R23, R24, R27) -/

/-- An image in range, in its parts. -/
theorem Image.inRange_iff (i : Image) : i.inRange = true ↔
    (i.band1.inRange = true ∧ i.band2.inRange = true ∧ i.band3.inRange = true ∧ i.band4.inRange = true) ∧
    (i.schedule.all ScheduleEntry.inRange = true ∧ i.schedule.length ≤ 8) ∧ (i.extras.all Extra.inRange = true ∧ i.extras.length ≤ 8) := by
  simp only [Image.inRange, Bool.and_eq_true, decide_eq_true_eq]
  tauto

/-- Every band of an image in range is. -/
theorem Image.band_inRange {i : Image} (range : i.inRange = true) (n : Nat) : (i.band n).inRange = true := by
  obtain ⟨⟨h1, h2, h3, h4⟩, -⟩ := i.inRange_iff.mp range
  unfold Image.band
  split <;> assumption

theorem Band.inRange_iff (b : Band) : b.inRange = true ↔ b.f0 ≤ 99999 ∧ b.d0 ≤ 65535 ∧ (1 ≤ b.a ∧ b.a ≤ 9999) ∧ (1 ≤ b.dstep ∧ b.dstep ≤ 9999) ∧
    (1 ≤ b.tstep ∧ b.tstep ≤ 65535) ∧ b.fmin ≤ 99999 := by
  simp [Band.inRange, within, and_assoc]

/-- So does the initial allowance (R4). -/
theorem Band.initialUnits_pos {b : Band} (range : b.inRange = true) : 0 < b.initialUnits := by
  obtain ⟨-, -, -, -, ⟨tstep, -⟩, -⟩ := b.inRange_iff.mp range
  unfold Band.initialUnits
  split
  · exact Band.units_pos range
  · exact Nat.mul_pos (Nat.pos_of_ne_zero ‹_›) tstep

/-- The staged parts received are in range. -/
theorem Staged.inRange_iff (st : Staged) : st.inRange = true ↔
    (∀ p ∈ st.part0, p.2.1.inRange = true ∧ p.2.2.inRange = true) ∧ (∀ p ∈ st.part1, p.1.inRange = true ∧ p.2.inRange = true) ∧
    (∀ es ∈ st.part2, es.all ScheduleEntry.inRange = true ∧ es.length ≤ 8) ∧ ∀ es ∈ st.part3, es.all Extra.inRange = true ∧ es.length ≤ 8 := by
  unfold Staged.inRange
  rcases st with ⟨_ | _, _ | _, _ | _, _ | _⟩ <;> simp [and_assoc]

/-- Staged parts in range make an image in range. -/
theorem Staged.image_inRange {st : Staged} (range : st.inRange = true) {i : Image} (h : st.image = some i) : i.inRange = true := by
  obtain ⟨r0, r1, r2, r3⟩ := st.inRange_iff.mp range
  unfold Staged.image at h
  split at h
  · rename_i p0 p1 p2 p3
    obtain rfl := Option.some.inj h
    obtain ⟨b1, b2⟩ := r0 _ p0
    obtain ⟨b3, b4⟩ := r1 _ p1
    exact (Image.inRange_iff _).mpr ⟨⟨b1, b2, b3, b4⟩, r2 _ p2, r3 _ p3⟩
  · cases h

/-- A band is decoded only in range. -/
theorem decodeBand_inRange {bs : List Byte} {b : Band} (h : decodeBand bs = some b) : b.inRange = true := by
  unfold decodeBand at h
  split at h
  · split at h
    · simp only at h
      split at h
      · rename_i range
        obtain rfl := Option.some.inj h
        exact range
      · cases h
    · cases h
  · cases h

theorem decodeSchedule_inRange : ∀ {bs : List Byte} {es : List ScheduleEntry}, decodeSchedule bs = some es →
    es.all ScheduleEntry.inRange = true ∧ bs.length = 4 * es.length
  | [], es, h => by
    obtain rfl : [] = es := by simpa [decodeSchedule] using h
    simp
  | [_], _, h | [_, _], _, h | [_, _, _], _, h => by simp [decodeSchedule] at h
  | d :: m1 :: m2 :: b :: rest, es, h => by
    simp only [decodeSchedule] at h
    split at h
    · rename_i range
      obtain ⟨tail, decoded, rfl⟩ := Option.map_eq_some_iff.mp h
      obtain ⟨all, length⟩ := decodeSchedule_inRange decoded
      refine ⟨by simp [range.2]; exact List.all_eq_true.mp all, by simp [length]; omega⟩
    · cases h

theorem decodeExtras_inRange : ∀ {bs : List Byte} {es : List Extra}, decodeExtras bs = some es →
    es.all Extra.inRange = true ∧ bs.length = 4 * es.length
  | [], es, h => by
    obtain rfl : [] = es := by simpa [decodeExtras] using h
    simp
  | [_], _, h | [_, _], _, h | [_, _, _], _, h => by simp [decodeExtras] at h
  | a1 :: a2 :: a3 :: c :: rest, es, h => by
    simp only [decodeExtras] at h
    split at h
    · rename_i range
      obtain ⟨tail, decoded, rfl⟩ := Option.map_eq_some_iff.mp h
      obtain ⟨all, length⟩ := decodeExtras_inRange decoded
      refine ⟨by simp [range]; exact List.all_eq_true.mp all, by simp [length]; omega⟩
    · cases h

/-- A part stored whole is in range (R27). -/
theorem stagePart_inRange {st st' : Staged} {part : Nat} {content : List Byte} (range : st.inRange = true)
    (length : tariffContentLength part content = true) (h : stagePart st part content = some st') : st'.inRange = true := by
  obtain ⟨r0, r1, r2, r3⟩ := st.inRange_iff.mp range
  rw [Staged.inRange_iff]
  unfold stagePart at h
  unfold tariffContentLength at length
  split at h
  · split at h
    · rename_i h1 h2
      obtain rfl := Option.some.inj h
      refine ⟨fun p hp => ?_, r1, r2, r3⟩
      obtain rfl := Option.some.inj hp
      exact ⟨decodeBand_inRange h1, decodeBand_inRange h2⟩
    · cases h
  · split at h
    · rename_i h1 h2
      obtain rfl := Option.some.inj h
      refine ⟨r0, fun p hp => ?_, r2, r3⟩
      obtain rfl := Option.some.inj hp
      exact ⟨decodeBand_inRange h1, decodeBand_inRange h2⟩
    · cases h
  · split at h
    · split at h
      · obtain ⟨es, decoded, rfl⟩ := Option.map_eq_some_iff.mp h
        obtain ⟨all, four⟩ := decodeSchedule_inRange decoded
        refine ⟨r0, r1, fun x hx => ?_, r3⟩
        obtain rfl := Option.some.inj hx
        have same := of_decide_eq_true length
        exact ⟨all, by omega⟩
      · cases h
    · cases h
  · split at h
    · split at h
      · obtain ⟨es, decoded, rfl⟩ := Option.map_eq_some_iff.mp h
        obtain ⟨all, four⟩ := decodeExtras_inRange decoded
        refine ⟨r0, r1, r2, fun x hx => ?_⟩
        obtain rfl := Option.some.inj hx
        have same := of_decide_eq_true length
        exact ⟨all, by omega⟩
      · cases h
    · cases h
  · cases h

/-! ## A trip within its bounds (R12, R14, R38) -/

/-- A trip's figures, but for progress and remaining-to-step. -/
structure Trip.Bounded (t : Trip) : Prop where
  fare : t.fare ≤ 9999999
  saturated : t.saturated = true → t.fare = 9999999
  steps : t.steps ≤ 999999999
  distance : t.distance ≤ 999999999
  waiting : t.waiting ≤ 999999999
  interruptions : t.interruptions ≤ 15

theorem Trip.inBounds_iff (t : Trip) : t.inBounds = true ↔ t.progress < t.remaining ∧ t.Bounded := by
  simp only [Trip.inBounds, Bool.and_eq_true, Bool.or_eq_true, Bool.not_eq_true', decide_eq_true_eq, and_assoc]
  constructor
  · rintro ⟨h1, h2, h3, h4, h5, h6, h7⟩
    exact ⟨h1, h2, fun h => h3.resolve_left (by simp [h]), h4, h5, h6, h7⟩
  · rintro ⟨h1, h2, h3, h4, h5, h6, h7⟩
    refine ⟨h1, h2, ?_, h4, h5, h6, h7⟩
    cases h : t.saturated
    · exact .inl rfl
    · exact .inr (h3 h)

section
variable {t : Trip}

/-- Charging steps keeps the bounds: the fare stops at its bound and is then saturated (R14). -/
theorem Trip.Bounded.charge (law : t.Bounded) (n a : Nat) : (t.charge n a).Bounded := by
  obtain ⟨fare, saturated, steps, distance, waiting, interruptions⟩ := law
  unfold Trip.charge
  split
  · exact ⟨fare, saturated, steps, distance, waiting, interruptions⟩
  · refine ⟨Nat.min_le_right _ _, fun h => ?_, Nat.min_le_right _ _, distance, waiting, interruptions⟩
    have most : Config.fareMax = 9999999 := rfl
    simp only [satAdd, most, Bool.or_eq_true, decide_eq_true_eq] at h ⊢
    obtain h | h := h
    · have := saturated h
      omega
    · omega

theorem Trip.Bounded.chargeFirst (law : t.Bounded) (img : Image) : (t.chargeFirst img).Bounded := by
  obtain ⟨fare, saturated, steps, distance, waiting, interruptions⟩ := law.charge 1 (img.band t.band).a
  exact ⟨fare, saturated, steps, distance, waiting, interruptions⟩

theorem Trip.Bounded.changeBand (law : t.Bounded) (img : Image) (n : Nat) : (t.changeBand img n).Bounded := by
  obtain ⟨fare, saturated, steps, distance, waiting, interruptions⟩ := law
  exact ⟨fare, saturated, steps, distance, waiting, interruptions⟩

theorem Trip.Bounded.chargeRest (law : t.Bounded) (b : Band) : (t.chargeRest b).Bounded := by
  obtain ⟨fare, saturated, steps, distance, waiting, interruptions⟩ := law.charge (t.progress / b.units) b.a
  exact ⟨fare, saturated, steps, distance, waiting, interruptions⟩

/-- The metres of an evaluation keep them. -/
theorem Trip.Bounded.addMetres (law : t.Bounded) (metres : Nat) : (t.addMetres metres).Bounded := by
  obtain ⟨fare, saturated, steps, distance, waiting, interruptions⟩ := law
  exact ⟨fare, saturated, steps, Nat.min_le_right _ _, waiting, interruptions⟩

end

/-- The steps charged leave the progress below remaining-to-step (R12). -/
theorem Trip.chargeSteps_inBounds {img : Image} (range : img.inRange = true) {t : Trip} (law : t.Bounded) :
    (t.chargeSteps img).inBounds = true := by
  have positive := Image.band_units_pos range
  rw [Trip.inBounds_iff]
  unfold Trip.chargeSteps
  split
  · exact ⟨‹_›, law⟩
  · split
    · exact ⟨Nat.mod_lt _ (positive _), (law.chargeFirst img).chargeRest _⟩
    · exact ⟨Nat.mod_lt _ (positive _), ((law.chargeFirst img).changeBand img _).chargeRest _⟩

/-- Charging leaves the phase. -/
theorem Trip.charge_phase (n a : Nat) (t : Trip) : (t.charge n a).phase = t.phase := by
  unfold Trip.charge
  split <;> rfl

theorem Trip.chargeSteps_phase (img : Image) (t : Trip) : (t.chargeSteps img).phase = t.phase := by
  unfold Trip.chargeSteps
  split
  · rfl
  · split <;> simp [Trip.chargeRest, Trip.chargeFirst, Trip.changeBand, Trip.charge_phase]

theorem lookedUp_rest (img : Image) (c : ClockReading) (t : Trip) : lookedUp img c t = { t with pendingBand := (lookedUp img c t).pendingBand } := by
  unfold lookedUp
  split <;> rfl

theorem Trip.addSecond_bounded {t : Trip} (law : t.Bounded) (img : Image) (metres : Nat) : (t.addSecond img metres).Bounded := by
  obtain ⟨fare, saturated, steps, distance, waiting, interruptions⟩ := law.addMetres metres
  refine ⟨fare, saturated, steps, distance, ?_, interruptions⟩
  simp only [Trip.addSecond]
  split
  · exact Nat.min_le_right _ _
  · exact waiting

/-- An evaluation leaves a trip within its bounds. -/
theorem evaluated_inBounds {img : Image} (range : img.inRange = true) (c : ClockReading) {t : Trip} (law : t.Bounded) (metres : Nat) :
    (((lookedUp img c t).addSecond img metres).chargeSteps img).inBounds = true := by
  obtain ⟨fare, saturated, steps, distance, waiting, interruptions⟩ := law
  refine Trip.chargeSteps_inBounds range (Trip.addSecond_bounded ?_ img metres)
  rw [lookedUp_rest]
  exact ⟨fare, saturated, steps, distance, waiting, interruptions⟩

theorem evaluated_phase (img : Image) (c : ClockReading) (t : Trip) (metres : Nat) :
    (((lookedUp img c t).addSecond img metres).chargeSteps img).phase = t.phase := by
  rw [Trip.chargeSteps_phase, lookedUp_rest]
  rfl

/-- A new trip starts within its bounds (R40). -/
theorem newTrip_inBounds (mode : BandMode) (band : Nat) {img : Image} (range : img.inRange = true) (s : State) :
    (newTrip mode band img s).inBounds = true := by
  have inRange := Image.band_inRange range band
  obtain ⟨f0, -⟩ := (Band.inRange_iff _).mp inRange
  rw [Trip.inBounds_iff]
  exact ⟨Band.initialUnits_pos inRange, by simp [newTrip]; omega, by simp [newTrip], by simp [newTrip], by simp [newTrip], by simp [newTrip],
    by simp [newTrip]⟩

/-! ## The law -/

/-- What the law says of the Tariff Store. -/
structure TariffLawful (x : TariffStore) : Prop where
  active : ∀ i ∈ x.active, i.image.inRange = true
  pending : ∀ i ∈ x.pending, i.image.inRange = true
  staged : x.staged.inRange = true

/-- The evaluation timer runs exactly while a trip RUNs under an active image, and the resume window is open only in STOPPED. -/
structure TimersLawful (power : Power) (running active stopped : Bool) (evalDue resumeDue : Option Nat) : Prop where
  evaluation : power = .up → (evalDue.isSome ↔ running = true ∧ active = true)
  resume : resumeDue.isSome → stopped = true

/-- The trip, if any, is within its bounds. -/
def TripLawful (trip : Option Trip) : Prop := ∀ t ∈ trip, t.inBounds = true

theorem fareLaw_iff (s : State) : FareLaw s ↔ TariffLawful s.tariff ∧ TripLawful s.trip ∧
    TimersLawful s.power (tripRunning s) s.tariff.active.isSome (tripStopped s) s.evalDue s.resumeDue := by
  constructor
  · rintro ⟨h1, h2, h3, h4, h5, h6⟩
    exact ⟨⟨by simpa using h1, by simpa using h2, h3⟩, by simpa [TripLawful] using h4, ⟨h5, h6⟩⟩
  · rintro ⟨⟨h1, h2, h3⟩, h4, ⟨h5, h6⟩⟩
    exact ⟨by simpa using h1, by simpa using h2, h3, by simpa [TripLawful] using h4, h5, h6⟩

theorem fareLaw_depends : DependsOn [.tariff, .trip, .evalDue, .resumeDue, .power] FareLaw := fun s t same law => by
  rw [fareLaw_iff] at *
  unfold tripRunning tripStopped at *
  rwa [show t.tariff = s.tariff from same .tariff (by simp), show t.trip = s.trip from same .trip (by simp),
    show t.power = s.power from same .power (by simp), show t.evalDue = s.evalDue from same .evalDue (by simp),
    show t.resumeDue = s.resumeDue from same .resumeDue (by simp)]

/-- A trip that stays within its bounds, in its phase, under images in range of which one stays active, keeps the law. -/
theorem fareLaw_of {s t : State} (law : FareLaw s) (tariff : TariffLawful t.tariff) (active : t.tariff.active.isSome = s.tariff.active.isSome)
    (trip : TripLawful t.trip) (phase : tripCode t.trip = tripCode s.trip) (evalDue : t.evalDue.isSome = s.evalDue.isSome)
    (resumeDue : t.resumeDue.isSome → s.resumeDue.isSome) (power : t.power = s.power) : FareLaw t := by
  rw [fareLaw_iff] at *
  obtain ⟨-, -, ⟨evaluation, resume⟩⟩ := law
  unfold tripRunning tripStopped at *
  rw [phase, power, active]
  exact ⟨tariff, trip, ⟨by rwa [evalDue], fun h => resume (resumeDue h)⟩⟩

/-- The phase is all that the trip code shows. -/
theorem tripCode_some {t t' : Trip} (h : t'.phase = t.phase) : tripCode (some t') = tripCode (some t) := by
  unfold tripCode
  simp only [h]

theorem tripRunning_some (s : State) {t : Trip} (h : s.trip = some t) : tripRunning s = true ↔ t.phase = .running := by
  unfold tripRunning tripCode
  cases hp : t.phase <;> simp [h, hp]

theorem tripRunning_none (s : State) (h : s.trip = none) : tripRunning s = false := by simp [tripRunning, tripCode, h]

theorem TariffLawful.of_same {x y : TariffStore} (law : TariffLawful x) (active : y.active = x.active) (pending : y.pending = x.pending)
    (staged : y.staged = x.staged) : TariffLawful y := by
  obtain ⟨h1, h2, h3⟩ := law
  exact ⟨by rwa [active], by rwa [pending], by rwa [staged]⟩

/-- A change of the clock or its mark. -/
theorem fareLaw_clock {s t : State} (law : FareLaw s) (active : t.tariff.active = s.tariff.active) (pending : t.tariff.pending = s.tariff.pending)
    (staged : t.tariff.staged = s.tariff.staged) (trip : t.trip = s.trip) (evalDue : t.evalDue = s.evalDue) (resumeDue : t.resumeDue = s.resumeDue)
    (power : t.power = s.power) : FareLaw t := by
  obtain ⟨tariff, trips, -⟩ := (fareLaw_iff s).mp law
  refine fareLaw_of law (tariff.of_same active pending staged) (by rw [active]) (by rwa [trip]) (by rw [trip]) (by rw [evalDue])
    (by rw [resumeDue]; exact id) power

/-! ## The owners that touch it -/

theorem takeEvaluation_keeps_fareLaw (s : State) (law : FareLaw s) : FareLaw (takeEvaluation s) := by
  obtain ⟨tariff, trips, -⟩ := (fareLaw_iff s).mp law
  unfold takeEvaluation
  split
  · exact law
  · rename_i due timer
    split
    · rename_i t i trip active
      split
      · obtain ⟨faults, meter, terminal, after⟩ := evaluate_eq i.image t { reach due s with evalDue := some (due + 1000) }
        have bounded := ((Trip.inBounds_iff t).mp (trips t trip)).2
        rw [after]
        refine fareLaw_of law (tariff.of_same rfl rfl rfl) rfl ?_ ?_ (by simp [timer]) id rfl
        · intro x hx
          obtain rfl := Option.some.inj hx
          exact evaluated_inBounds (tariff.active i active) _ bounded _
        · rw [trip]
          exact tripCode_some (evaluated_phase _ _ _ _)
      · exact law
    · exact law

/-- Without a trip no evaluation and no resume window runs. -/
theorem fareLaw_idle {s : State} (tariff : TariffLawful s.tariff) (trip : s.trip = none) (evalDue : s.evalDue = none) (resumeDue : s.resumeDue = none) :
    FareLaw s := by
  rw [fareLaw_iff, tripRunning_none s trip, trip, evalDue, resumeDue]
  exact ⟨tariff, nofun, ⟨by simp, by simp⟩⟩

theorem FareLaw.noWindow {s : State} (law : FareLaw s) (trip : s.trip = none) : s.resumeDue = none := by
  obtain ⟨-, -, ⟨-, resume⟩⟩ := (fareLaw_iff s).mp law
  by_contra h
  have := resume (Option.isSome_iff_ne_none.mpr h)
  simp [tripStopped, tripCode, trip] at this

/-- A trip that starts is RUNNING under the image of its flag-down band (R40). -/
theorem startTrip_keeps_fareLaw (mode : BandMode) (n : Nat) {i : StoredImage} (s : State) (law : FareLaw s) (idle : s.trip = none)
    (active : s.tariff.active = some i) : FareLaw (startTrip mode n i.image s) := by
  obtain ⟨tariff, -, -⟩ := (fareLaw_iff s).mp law
  have marked : ∃ faults meter mark, (if mode = .auto then lookupMark Config.flagDownFaultIsActive s else s) = { s with
      faults := faults, meter := meter, tariff := { s.tariff with clockUnsetMark := mark } } := by
    split
    · obtain ⟨f, m, h⟩ := lookupMark_eq Config.flagDownFaultIsActive s
      exact ⟨f, m, _, h⟩
    · exact ⟨s.faults, s.meter, s.tariff.clockUnsetMark, rfl⟩
  obtain ⟨faults, meter, mark, marked⟩ := marked
  unfold startTrip
  rw [marked, fareLaw_iff]
  refine ⟨tariff.of_same rfl rfl rfl, fun x hx => ?_, ⟨fun _ => ?_, ?_⟩⟩
  · obtain rfl := Option.some.inj hx
    exact newTrip_inBounds mode _ (tariff.active i active) s
  · rw [tripRunning_some _ rfl]
    simp [active, newTrip]
  · simp [law.noWindow idle]

theorem flagDown_keeps_fareLaw (mode n : Nat) (s : State) (law : FareLaw s) : FareLaw (flagDown mode n s).1 := by
  unfold flagDown
  split
  · exact law
  · rename_i idle
    split
    · exact law
    · split
      · exact law
      · rename_i i active
        split
        · exact law
        · refine fareLaw_depends.keep (dutyChanged_frame _ _) (by decide) ?_
          refine fareLaw_depends.keep (abandonAccepted_frame _) (by decide) ?_
          exact fareLaw_depends.keep (hireSlot_frame _) (by decide)
            (startTrip_keeps_fareLaw _ n s law (by simpa using idle) active)

/-- The partial evaluation of a STOP leaves the trip within its bounds (R16). -/
theorem partialOf_tripLawful {t : Trip} {s : State} (tariff : TariffLawful s.tariff) (trip : s.trip = some t) (bounds : t.inBounds = true) :
    TripLawful (partialOf t s).trip := by
  unfold partialOf
  split
  · rename_i i active
    intro x hx
    have charged : (partialEvaluate i.image t s).trip = some (Trip.chargeSteps i.image { t.addMetres s.dist.metres with
        progress := t.progress + (i.image.band t.band).distanceUnits (min s.dist.metres Config.clampMetres) }) := by
      simp only [partialEvaluate]
      rw [chargeNotices_frame _ _ .trip (by decide)]
    obtain rfl : _ = x := Option.some.inj (charged ▸ hx)
    refine Trip.chargeSteps_inBounds (tariff.active i active) ?_
    obtain ⟨fare, saturated, steps, distance, waiting, interruptions⟩ := (((Trip.inBounds_iff t).mp bounds).2).addMetres s.dist.metres
    exact ⟨fare, saturated, steps, distance, waiting, interruptions⟩
  · intro x hx
    obtain rfl := Option.some.inj (trip ▸ hx)
    exact bounds

theorem stop_keeps_fareLaw (s : State) (law : FareLaw s) : FareLaw (stop s).1 := by
  obtain ⟨tariff, trips, -⟩ := (fareLaw_iff s).mp law
  unfold stop
  split
  · rename_i t trip
    split
    · have bounds := partialOf_tripLawful tariff trip (trips t trip)
      have there := stop_trip_isSome s
      have same : (partialOf t s).tariff = s.tariff := by
        unfold partialOf
        split
        · exact partialEvaluate_frame _ _ _ .tariff (by decide)
        · rfl
      rw [fareLaw_iff]
      simp only [done, takeStop]
      obtain ⟨x, hx⟩ : ∃ x, (partialOf t s).trip = some x := by
        unfold partialOf
        split
        · exact Option.isSome_iff_exists.mp (partialEvaluate_trip_isSome _ _ _)
        · exact ⟨t, trip⟩
      refine ⟨by rwa [same], fun y hy => ?_, ⟨fun _ => ?_, fun _ => ?_⟩⟩
      · rw [hx] at hy
        obtain rfl := Option.some.inj hy
        exact bounds x hx
      · rw [tripRunning_some (t := x.stopped s.tariff.active) _ (by simp [hx])]
        simp [Trip.stopped]
      · simp [tripStopped, tripCode, hx, Trip.stopped]
    · exact law
  · exact law

theorem resume_keeps_fareLaw (s : State) (law : FareLaw s) : FareLaw (resume s).1 := by
  obtain ⟨tariff, trips, -⟩ := (fareLaw_iff s).mp law
  unfold resume
  split
  · exact law
  · rename_i t trip
    split
    · exact law
    · split
      · rw [fareLaw_iff]
        refine ⟨tariff, fun x hx => ?_, ⟨fun _ => ?_, nofun⟩⟩
        · obtain rfl := Option.some.inj hx
          exact trips t trip
        · rw [tripRunning_some _ rfl]
          simp only [done, takeResume]
          split <;> simp_all
      · exact law

theorem addExtra_keeps_fareLaw (n : Nat) (s : State) (law : FareLaw s) : FareLaw (addExtra n s).1 := by
  obtain ⟨tariff, trips, -⟩ := (fareLaw_iff s).mp law
  unfold addExtra
  split
  · exact law
  · rename_i t trip
    split
    · exact law
    · split
      · exact law
      · refine fareLaw_of law tariff rfl (fun x hx => ?_) ?_ rfl id rfl
        · obtain rfl := Option.some.inj hx
          exact trips t trip
        · rw [trip]
          simp only [done, takeExtra, noticeTerminal, Trip.reprice]
          cases h : t.phase <;> simp [tripCode, h]

/-- A pending image that becomes active is in range (R29). -/
theorem activatePending_tariffLawful {s : State} (tariff : TariffLawful s.tariff) : TariffLawful (activatePending s).tariff := by
  unfold activatePending
  split
  · exact tariff
  · rename_i i pending
    refine ⟨fun x hx => ?_, nofun, tariff.staged⟩
    obtain rfl := Option.some.inj hx
    exact tariff.pending i pending

theorem clear_keeps_fareLaw (s : State) (law : FareLaw s) : FareLaw (clear s).1 := by
  obtain ⟨tariff, -, -⟩ := (fareLaw_iff s).mp law
  unfold clear
  split
  · exact law
  · split
    · exact law
    · rename_i t _ _ total _ _
      refine fareLaw_depends.keep (dutyChanged_frame _ _) (by decide) (fareLaw_depends.keep (leaveHired_frame _) (by decide) ?_)
      refine fareLaw_idle (activatePending_tariffLawful ?_) rfl rfl ?_
      · rw [closeTrip_frame t total s .tariff (by decide)]
        exact tariff
      · show (activatePending (closeTrip t total s)).resumeDue = none
        rw [activatePending_frame _ .resumeDue (by decide), closeTrip, ensureFareTotal_frame _ .resumeDue (by decide)]

theorem loadTariffPart_keeps_fareLaw (part : Nat) (content : List Byte) (s : State) (law : FareLaw s) : FareLaw (loadTariffPart part content s).1 := by
  obtain ⟨tariff, trips, -⟩ := (fareLaw_iff s).mp law
  unfold loadTariffPart
  split
  · split
    · exact fareLaw_of law ⟨tariff.active, tariff.pending, stagePart_inRange tariff.staged ‹_› ‹_›⟩ rfl trips rfl rfl id rfl
    · exact law
  · exact law

theorem commitTariff_keeps_fareLaw (expected : Nat) (s : State) (law : FareLaw s) : FareLaw (commitTariff expected s).1 := by
  obtain ⟨⟨active, pending, staged⟩, trips, ⟨evaluation, resume⟩⟩ := (fareLaw_iff s).mp law
  unfold commitTariff
  split
  · exact law
  · rename_i i found
    have range := Staged.image_inRange staged found
    have new : ∀ x ∈ (some ⟨i, imageCheck i⟩ : Option StoredImage), x.image.inRange = true := fun x hx => by
      obtain rfl := Option.some.inj hx
      exact range
    split
    · simp only [done, commitImage]
      split
      · rename_i idle
        rw [fareLaw_iff]
        refine ⟨⟨new, pending, rfl⟩, trips, ⟨fun up => ?_, resume⟩⟩
        have off := evaluation up
        rw [tripRunning_none s idle] at off
        have still : tripRunning (noticeMeter noticeTariffActive
          { s with tariff := { s.tariff with active := some ⟨i, imageCheck i⟩, staged := Staged.empty } }) = false := tripRunning_none _ idle
        rw [still]
        simpa using off
      · exact fareLaw_of law ⟨active, new, rfl⟩ rfl trips rfl rfl id rfl
    · exact law

theorem setClock_keeps_fareLaw (a b c d : Nat) (s : State) (law : FareLaw s) : FareLaw (setClock a b c d s).1 := by
  unfold setClock
  split
  · exact law
  · split
    · exact fareLaw_clock law rfl rfl rfl rfl rfl rfl rfl
    · exact law

/-- A job ended by the air may leave the trip, which keeps its figures (R47). -/
theorem fareLaw_of_tripJob {F : List Field} {s t : State} (law : FareLaw s) (frame : changesOnly F s t)
    (rest : ∀ f ∈ [Field.tariff, .evalDue, .resumeDue, .power], f ∉ F)
    (trip : ∃ f : Option TripJob → Option TripJob, t.trip = s.trip.map (fun x => { x with job := f x.job })) : FareLaw t := by
  obtain ⟨tariff, trips, -⟩ := (fareLaw_iff s).mp law
  obtain ⟨f, trip⟩ := trip
  have same : t.tariff = s.tariff := frame .tariff (rest _ (by simp))
  have evalDue : t.evalDue = s.evalDue := frame .evalDue (rest _ (by simp))
  have resumeDue : t.resumeDue = s.resumeDue := frame .resumeDue (rest _ (by simp))
  refine fareLaw_of law (by rwa [same]) (by rw [same]) ?_ ?_ (by rw [evalDue]) (by rw [resumeDue]; exact id) (frame .power (rest _ (by simp)))
  · intro x hx
    rw [trip] at hx
    obtain ⟨y, hy, rfl⟩ := Option.map_eq_some_iff.mp hx
    exact trips y hy
  · rw [trip]
    cases s.trip <;> rfl

theorem cancelJob_trip (n : Nat) (s : State) :
    ∃ f : Option TripJob → Option TripJob, (cancelJob n s).trip = s.trip.map (fun x => { x with job := f x.job }) := by
  unfold cancelJob
  split
  · exact ⟨_, by rw [dutyChanged_frame _ _ .trip (by decide)]; rfl⟩
  · split
    · exact ⟨_, by rw [refreshStatus_frame _ _ .trip (by decide)]; rfl⟩
    · split
      · exact ⟨_, rfl⟩
      · exact ⟨id, by simp⟩

theorem takeWithdraw_trip (n : Nat) (s : State) :
    ∃ f : Option TripJob → Option TripJob, (takeWithdraw n s).trip = s.trip.map (fun x => { x with job := f x.job }) := by
  have withdrawn : ∃ f : Option TripJob → Option TripJob, (withdrawJob n s).trip = s.trip.map (fun x => { x with job := f x.job }) := by
    unfold withdrawJob
    split
    · exact cancelJob_trip n s
    · exact ⟨id, by simp⟩
  unfold takeWithdraw
  split
  · split
    · exact withdrawn
    · exact ⟨id, by rw [endOffer_frame _ _ _ .trip (by decide)]; simp⟩
  · exact withdrawn

/-- A press marks the trip, and nothing else of it (R48). -/
theorem takeLevels_trip (l0 l1 : Option Level) (s : State) :
    (takeLevels l0 l1 s).trip = s.trip ∨ (takeLevels l0 l1 s).trip = s.trip.map (fun t => { t with emergency := true }) := by
  unfold takeLevels
  simp only
  split
  · unfold takePress
    split
    · exact .inl (by rw [escalate_frame _ .trip (by decide)])
    · exact .inr (by rw [beginEmergency_trip])
  · exact .inl rfl

theorem takeLevels_keeps_fareLaw (l0 l1 : Option Level) (s : State) (law : FareLaw s) : FareLaw (takeLevels l0 l1 s) := by
  obtain ⟨tariff, trips, -⟩ := (fareLaw_iff s).mp law
  have frame := takeLevels_frame l0 l1 s
  have same : (takeLevels l0 l1 s).tariff = s.tariff := frame .tariff (by decide)
  have evalDue : (takeLevels l0 l1 s).evalDue = s.evalDue := frame .evalDue (by decide)
  have resumeDue : (takeLevels l0 l1 s).resumeDue = s.resumeDue := frame .resumeDue (by decide)
  refine fareLaw_of law (by rwa [same]) (by rw [same]) ?_ ?_ (by rw [evalDue]) (by rw [resumeDue]; exact id) (frame .power (by decide))
  · obtain trip | trip := takeLevels_trip l0 l1 s <;> rw [trip]
    · exact trips
    · intro x hx
      obtain ⟨y, hy, rfl⟩ := Option.map_eq_some_iff.mp hx
      exact trips y hy
  · obtain trip | trip := takeLevels_trip l0 l1 s <;> rw [trip]
    cases s.trip <;> rfl

/-! ## Losses and starts (R20, R31, R49, R178, R179) -/

/-- A part that is down runs no timer. -/
theorem fareLaw_goDown {s : State} (tariff : TariffLawful s.tariff) (trip : TripLawful s.trip) : FareLaw (goDown s) :=
  (fareLaw_iff _).mpr ⟨⟨tariff.active, tariff.pending, rfl⟩, trip, ⟨nofun, nofun⟩⟩

/-- What a start finds, its images and trip checked: images in range, a trip within its bounds. -/
def FoundLawful (s : State) : Prop := TariffLawful s.tariff ∧ TripLawful s.trip

theorem checkActive_foundLawful {s : State} (law : FoundLawful s) : FoundLawful (checkActive s) := by
  obtain ⟨⟨active, pending, staged⟩, trip⟩ := law
  rw [checkActive_eq]
  exact ⟨⟨fun i hi => active i (Option.filter_eq_some_iff.mp hi).1, pending, staged⟩, trip⟩

theorem checkPending_foundLawful {s : State} (law : FoundLawful s) : FoundLawful (checkPending s) := by
  obtain ⟨⟨active, pending, staged⟩, trip⟩ := law
  rw [checkPending_eq]
  exact ⟨⟨active, fun i hi => pending i (Option.filter_eq_some_iff.mp hi).1, staged⟩, trip⟩

theorem continueTrip_foundLawful {s : State} (law : FoundLawful s) : FoundLawful (continueTrip s) := by
  obtain ⟨tariff, trip⟩ := law
  refine ⟨by rwa [continueTrip_frame s .tariff (by decide)], ?_⟩
  unfold continueTrip
  split
  · exact trip
  · rename_i t found
    obtain ⟨progress, fare, saturated, steps, distance, waiting, -⟩ := (Trip.inBounds_iff t).mp (trip t found)
    split
    · intro x hx
      obtain rfl := Option.some.inj hx
      exact (Trip.inBounds_iff _).mpr ⟨progress, fare, saturated, steps, distance, waiting, Nat.min_le_right _ _⟩
    · unfold keepStopped
      split
      · exact trip
      · intro x hx
        obtain rfl := Option.some.inj hx
        exact trip t found

theorem continueEmergency_foundLawful {s : State} (law : FoundLawful s) : FoundLawful (continueEmergency s) := by
  unfold continueEmergency
  split <;> exact law

theorem warmSteps_foundLawful (reach : StartReach) {s : State} (law : FareLaw s) : FoundLawful (warmSteps reach s) := by
  obtain ⟨tariff, trip, -⟩ := (fareLaw_iff s).mp law
  have found : FoundLawful { resetVolatile s with power := .up } := ⟨⟨tariff.active, tariff.pending, rfl⟩, trip⟩
  cases reach with
  | kind => exact found
  | activeImage => exact checkActive_foundLawful found
  | images => exact checkPending_foundLawful (checkActive_foundLawful found)
  | trip => exact continueTrip_foundLawful (checkPending_foundLawful (checkActive_foundLawful found))
  | emergency => exact continueEmergency_foundLawful (continueTrip_foundLawful (checkPending_foundLawful (checkActive_foundLawful found)))

/-- The timers after the trip found is continued: none but the evaluation timer of a trip that RUNs under an active image. -/
theorem continueTrip_timers {s : State} (evalDue : s.evalDue = none) (resumeDue : s.resumeDue = none) :
    ((continueTrip s).evalDue.isSome ↔ tripRunning (continueTrip s) = true ∧ (continueTrip s).tariff.active.isSome) ∧
      (continueTrip s).resumeDue = none := by
  refine ⟨?_, by rw [continueTrip_frame s .resumeDue (by decide), resumeDue]⟩
  unfold continueTrip
  split
  · rename_i idle
    simp [evalDue, tripRunning_none s idle]
  · rename_i t found
    split
    · rename_i running
      rw [tripRunning_some (t := { t with interruptions := min (t.interruptions + 1) 15 }) _ rfl]
      simp only [resumeRunning, noticeMeter, placeFault]
      split <;> simp_all
    · rename_i total uplift stopped
      unfold keepStopped
      split
      · rw [tripRunning_some s found]
        simp [evalDue, stopped]
      · rw [tripRunning_some (t := { t with phase := .stopped t.fare 0 }) _ rfl]
        simp [evalDue]

theorem warmStart_keeps_fareLaw (s : State) (law : FareLaw s) : FareLaw (warmStart s) := by
  have found := warmSteps_foundLawful .emergency law
  have started : FareLaw (warmSteps .emergency s) := by
    obtain ⟨timer, window⟩ := continueTrip_timers (s := checkPending (checkActive { resetVolatile s with power := .up }))
      (by rw [checkPending_frame _ .evalDue (by decide), checkActive_frame _ .evalDue (by decide)]; rfl)
      (by rw [checkPending_frame _ .resumeDue (by decide), checkActive_frame _ .resumeDue (by decide)]; rfl)
    refine fareLaw_depends.keep (continueEmergency_frame _) (by decide) ?_
    rw [fareLaw_iff, window]
    refine ⟨?_, ?_, ⟨fun _ => timer, nofun⟩⟩
    · have := found.1
      rwa [warmSteps, continueEmergency_frame _ .tariff (by decide)] at this
    · have := found.2
      rwa [warmSteps, continueEmergency_frame _ .trip (by decide)] at this
  exact fareLaw_depends.keep (restartBeacon_frame _) (by decide) (fareLaw_depends.keep (ensureFareTotal_frame _) (by decide) started)

/-- Damage of an image shows in its check value alone (R31). -/
theorem damaged_inRange {place : Option StoredImage} (range : ∀ i ∈ place, i.image.inRange = true) :
    ∀ i ∈ place.map StoredImage.damage, i.image.inRange = true := by
  intro i hi
  obtain ⟨x, hx, rfl⟩ := Option.map_eq_some_iff.mp hi
  exact range x hx

/-! ## Every step -/

/-- What the law of the Fare Engine takes of each owner that touches the images, the trip or its timers. -/
theorem fareLaw_beyond : KeptBeyond [.tariff, .trip, .evalDue, .resumeDue, .power] FareLaw where
  tick := .inr fun s law => fareLaw_clock law rfl rfl rfl rfl rfl rfl rfl
  evaluation := .inr fun s law _ => takeEvaluation_keeps_fareLaw s law
  flagDown := .inr flagDown_keeps_fareLaw
  stop := .inr stop_keeps_fareLaw
  resume := .inr resume_keeps_fareLaw
  clear := .inr clear_keeps_fareLaw
  addExtra := .inr addExtra_keeps_fareLaw
  loadTariffPart := .inr loadTariffPart_keeps_fareLaw
  commitTariff := .inr commitTariff_keeps_fareLaw
  setClock := .inr setClock_keeps_fareLaw
  withdraw := .inr fun n s law => fareLaw_of_tripJob law (takeWithdraw_frame n s) (by decide) (takeWithdraw_trip n s)
  jobCancel := .inr fun n s law => fareLaw_of_tripJob law (cancelJob_frame n s) (by decide) (cancelJob_trip n s)
  levels := .inr fun a b s law _ => takeLevels_keeps_fareLaw a b s law
  resumeExpiry := .inr fun s law => by
    obtain ⟨tariff, trips, -⟩ := (fareLaw_iff s).mp law
    unfold takeResumeExpiry
    split
    · exact law
    · exact fareLaw_of law tariff rfl trips rfl rfl nofun rfl
  damage := .inr ⟨fun s law => by
      obtain ⟨⟨active, pending, staged⟩, trips, -⟩ := (fareLaw_iff s).mp law
      exact fareLaw_of law ⟨damaged_inRange active, pending, staged⟩ (by simp [damageActive]) trips rfl rfl id rfl,
    fun s law => by
      obtain ⟨⟨active, pending, staged⟩, trips, -⟩ := (fareLaw_iff s).mp law
      exact fareLaw_of law ⟨active, damaged_inRange pending, staged⟩ rfl trips rfl rfl id rfl⟩
  down s law := by
    obtain ⟨tariff, trips, -⟩ := (fareLaw_iff s).mp law
    exact fareLaw_goDown tariff trips
  abandoned reach s law := by
    obtain ⟨tariff, trips⟩ := warmSteps_foundLawful reach law
    exact fareLaw_goDown tariff trips
  cold s := fareLaw_idle ⟨nofun, nofun, rfl⟩ rfl rfl rfl
  warm := warmStart_keeps_fareLaw

/-- Settles O14: the law of the Fare Engine is kept by every owner that touches it. -/
theorem fareLawIsKept : Obligations.FareLawIsKept := keeps_of_owners (fareLaw_beyond.keptByOwners fareLaw_depends)

end Sys2Proof.Machine
end

section
/-! PROOFS. The ranges of the settings, the clock, the counters and the Fault Log (10.5, R1, R32, R36, R60, R180), and the check value of the
Retained Domain (R178), are kept by every step. -/

namespace Sys2Proof.Machine

open Sys2Proof

/-! ## The check value (R178) -/

theorem domainAgrees_iff (s : State) : domainAgrees s = true ↔ s.domainCheck = computeDomainCheck s := decide_eq_true_iff

/-- What the part does while it is up is one change with the update of the check value. -/
theorem whenUp_agrees {f : State → State} {s t : State} (h : whenUp f s = .next t) (up : t.power = .up) : t.domainCheck = computeDomainCheck t := by
  obtain rfl : (if s.power = .up then sealDomain (f s) else s) = t := by simpa [whenUp] using h
  split at up
  · rw [if_pos ‹_›]
    rfl
  · exact absurd up ‹_›

/-- The check value of the cold contents is the one of the reset state. -/
theorem coldStart_agrees (s : State) : (coldStart s).domainCheck = computeDomainCheck (coldStart s) :=
  (domainAgrees_iff State.reset).mp domainAgrees_reset

theorem startAs_agrees (warm : State → State) (s : State) : (startAs warm s).domainCheck = computeDomainCheck (startAs warm s) := by
  unfold startAs
  split
  · rfl
  · exact coldStart_agrees s

theorem losePower_power (fate : DomainFate) (s : State) : (losePower fate s).power = .down := by
  cases fate <;> rfl

/-- A command leaves a part that is up with a check value that agrees with its contents; the running clock alone leaves that value be (R178). -/
theorem exec_agrees {c : Instr} {s t : State} (h : exec c s = .next t) (up : t.power = .up) (other : c ≠ .clockTick) :
    t.domainCheck = computeDomainCheck t := by
  cases c
  case clockTick => exact absurd rfl other
  case start =>
    obtain rfl : startAs warmStart s = t := by simpa [exec, execStart] using h
    exact startAs_agrees warmStart s
  case vmainLossOrReset fate =>
    obtain rfl : losePower fate s = t := by simpa [exec, execVmainLossOrReset] using h
    simp [losePower_power] at up
  case distPulse =>
    simp only [exec, execDistPulse] at h
    exact whenUp_agrees h up
  all_goals exact whenUp_agrees h up

theorem exec_clockTick_check {s t : State} (h : exec .clockTick s = .next t) : t.domainCheck = s.domainCheck := by
  obtain rfl : (if s.tariff.clock.isSet then { s with tariff := { s.tariff with clock := s.tariff.clock.tick } } else s) = t := by
    simpa [exec, execClockTick] using h
  split <;> rfl

/-- The tick of the clock is no change of a retained item (R32, R178). -/
theorem exec_clockTick_keeps_domainLaw {s t : State} (law : DomainLaw s) (h : exec .clockTick s = .next t) : DomainLaw t := by
  obtain rfl : (if s.tariff.clock.isSet then { s with tariff := { s.tariff with clock := s.tariff.clock.tick } } else s) = t := by
    simpa [exec, execClockTick] using h
  split
  · intro up
    have same : computeDomainCheck { s with tariff := { s.tariff with clock := s.tariff.clock.tick } } = computeDomainCheck s :=
      computeDomainCheck_congr rfl rfl s.tariff.clock.tick_isSet rfl rfl rfl rfl rfl rfl rfl
    exact (law up).trans same.symm
  · exact law

theorem exec_keeps_domainLaw {c : Instr} {s t : State} (law : DomainLaw s) (h : exec c s = .next t) : DomainLaw t := by
  by_cases tick : c = .clockTick
  · subst tick
    exact exec_clockTick_keeps_domainLaw law h
  · exact fun up => exec_agrees h up tick

theorem step_keeps_domainLaw {s t : State} (law : DomainLaw s) (h : step s = .next t) : DomainLaw t := by
  unfold step at h
  split at h
  · rename_i c rest _
    exact exec_keeps_domainLaw (s := { s with pending := rest }) law h
  · split at h
    · exact exec_keeps_domainLaw law h
    · exact fun up => whenUp_agrees h up
    · obtain rfl : passTime s = t := by simpa using h
      unfold passTime
      split <;> exact law

/-! ## Settings and counters in range (10.5, R1, R32, R60, R180) -/

/-- What the law says of the Distance Counter under a K: the remainder is below K, and 0 while K is unset (R1). -/
def DistanceLawful (k : Nat) (d : Distance) : Prop := (k = 0 → d.remainder = 0) ∧ (k ≠ 0 → d.remainder < k) ∧ d.metres ≤ 65535

/-- A clock reading in its ranges (R32). -/
def ClockReading.inRange (c : ClockReading) : Prop := clockInRange c.day c.hour c.minute c.second = true

theorem settingsLaw_iff (s : State) : SettingsLaw s ↔ s.settings.inRange = true ∧ s.tariff.clock.inRange ∧
    DistanceLawful s.settings.k s.dist ∧ s.totals.inRange = true ∧ s.faults.length ≤ 16 := by
  unfold SettingsLaw DistanceLawful ClockReading.inRange
  tauto

theorem settingsLaw_depends : DependsOn [.settings, .tariff, .dist, .totals, .faults] SettingsLaw := fun s t same law => by
  unfold SettingsLaw at *
  rwa [show t.settings = s.settings from same .settings (by simp), show t.tariff = s.tariff from same .tariff (by simp),
    show t.dist = s.dist from same .dist (by simp), show t.totals = s.totals from same .totals (by simp),
    show t.faults = s.faults from same .faults (by simp)]

/-- A change that keeps the settings, the clock, the remainder and the totalizers, and leaves the metres and the Fault Log within their bounds. -/
theorem settingsLaw_of {s t : State} (law : SettingsLaw s) (settings : t.settings = s.settings) (clock : t.tariff.clock = s.tariff.clock)
    (remainder : t.dist.remainder = s.dist.remainder) (metres : t.dist.metres ≤ s.dist.metres) (totals : t.totals = s.totals)
    (faults : s.faults.length ≤ 16 → t.faults.length ≤ 16) : SettingsLaw t := by
  rw [settingsLaw_iff] at *
  obtain ⟨range, time, ⟨unset, set, most⟩, counted, log⟩ := law
  rw [settings, clock, totals]
  exact ⟨range, time, ⟨by rwa [remainder], by rwa [remainder], by omega⟩, counted, faults log⟩

/-- The Fault Log holds 16 entries at most (R180). -/
theorem placeFault_faults_length (k : FaultKind) (a : Bool) {s : State} (h : s.faults.length ≤ 16) : (placeFault k a s).faults.length ≤ 16 := by
  have most : Config.faultMax = 16 := rfl
  simp only [placeFault, most]
  split <;> simp <;> omega

/-- A fault entry keeps the law. -/
theorem placeFault_keeps_settingsLaw (k : FaultKind) (a : Bool) {s : State} (law : SettingsLaw s) : SettingsLaw (placeFault k a s) :=
  settingsLaw_of law rfl rfl rfl le_rfl rfl (placeFault_faults_length k a)

/-- So does a change of what the law does not look at, in the parts it does. -/
theorem settingsLaw_same {s t : State} (law : SettingsLaw s) (settings : t.settings = s.settings) (clock : t.tariff.clock = s.tariff.clock)
    (dist : t.dist = s.dist) (totals : t.totals = s.totals) (faults : t.faults = s.faults) : SettingsLaw t :=
  settingsLaw_of law settings clock (by rw [dist]) (by rw [dist]) totals (by rw [faults]; exact id)

theorem lookupMark_keeps_settingsLaw (a : Bool) {s : State} (law : SettingsLaw s) : SettingsLaw (lookupMark a s) := by
  unfold lookupMark
  split
  · exact placeFault_keeps_settingsLaw _ _ (settingsLaw_same law rfl rfl rfl rfl rfl)
  · exact law

theorem speedFaultEntry_keeps_settingsLaw (metres : Nat) (t : Trip) {s : State} (law : SettingsLaw s) : SettingsLaw (speedFaultEntry metres t s) := by
  unfold speedFaultEntry
  split
  · exact placeFault_keeps_settingsLaw _ _ law
  · exact law

/-- The metres are taken (R9). -/
theorem settingsLaw_taken {s : State} (law : SettingsLaw s) : SettingsLaw { s with dist := { s.dist with metres := 0 } } :=
  settingsLaw_of law rfl rfl rfl (Nat.zero_le _) rfl id

theorem evaluate_keeps_settingsLaw (img : Image) (t : Trip) {s : State} (law : SettingsLaw s) : SettingsLaw (evaluate img t s) := by
  have marked : SettingsLaw (if t.mode = .auto then lookupMark true s else s) := by
    split
    · exact lookupMark_keeps_settingsLaw true law
    · exact law
  have dist : (speedFaultEntry s.dist.metres t (if t.mode = .auto then lookupMark true s else s)).dist = s.dist := by
    obtain ⟨f, m, h⟩ := speedFaultEntry_eq s.dist.metres t (if t.mode = .auto then lookupMark true s else s)
    rw [h]
    simp only
    split
    · obtain ⟨f, m, h⟩ := lookupMark_eq true s
      rw [h]
    · rfl
  have taken := settingsLaw_taken (speedFaultEntry_keeps_settingsLaw s.dist.metres t marked)
  rw [dist] at taken
  exact settingsLaw_depends.keep (chargeNotices_frame _ _) (by decide) (settingsLaw_same taken rfl rfl rfl rfl rfl)

theorem partialEvaluate_keeps_settingsLaw (img : Image) (t : Trip) {s : State} (law : SettingsLaw s) : SettingsLaw (partialEvaluate img t s) := by
  have dist : (speedFaultEntry s.dist.metres t s).dist = s.dist := by
    obtain ⟨f, m, h⟩ := speedFaultEntry_eq s.dist.metres t s
    rw [h]
  have taken := settingsLaw_taken (speedFaultEntry_keeps_settingsLaw s.dist.metres t law)
  rw [dist] at taken
  exact settingsLaw_depends.keep (chargeNotices_frame _ _) (by decide) (settingsLaw_same taken rfl rfl rfl rfl rfl)

theorem takeEvaluation_keeps_settingsLaw (s : State) (law : SettingsLaw s) : SettingsLaw (takeEvaluation s) := by
  unfold takeEvaluation
  split
  · exact law
  · split
    · split
      · exact evaluate_keeps_settingsLaw _ _ (settingsLaw_same law rfl rfl rfl rfl rfl)
      · exact law
    · exact law

theorem startTrip_keeps_settingsLaw (mode : BandMode) (n : Nat) (img : Image) {s : State} (law : SettingsLaw s) :
    SettingsLaw (startTrip mode n img s) := by
  have marked : SettingsLaw (if mode = .auto then lookupMark Config.flagDownFaultIsActive s else s) := by
    split
    · exact lookupMark_keeps_settingsLaw _ law
    · exact law
  have dist : (if mode = .auto then lookupMark Config.flagDownFaultIsActive s else s).dist = s.dist := by
    split
    · obtain ⟨f, m, h⟩ := lookupMark_eq Config.flagDownFaultIsActive s
      rw [h]
    · rfl
  have taken := settingsLaw_taken marked
  rw [dist] at taken
  exact settingsLaw_same taken rfl rfl rfl rfl rfl

theorem flagDown_keeps_settingsLaw (mode n : Nat) (s : State) (law : SettingsLaw s) : SettingsLaw (flagDown mode n s).1 := by
  unfold flagDown
  split
  · exact law
  · split
    · exact law
    · split
      · exact law
      · split
        · exact law
        · refine settingsLaw_depends.keep (dutyChanged_frame _ _) (by decide) ?_
          refine settingsLaw_depends.keep (abandonAccepted_frame _) (by decide) ?_
          exact settingsLaw_depends.keep (hireSlot_frame _) (by decide) (startTrip_keeps_settingsLaw _ n _ law)

theorem stop_keeps_settingsLaw (s : State) (law : SettingsLaw s) : SettingsLaw (stop s).1 := by
  unfold stop
  split
  · rename_i t _
    split
    · have charged : SettingsLaw (partialOf t s) := by
        unfold partialOf
        split
        · exact partialEvaluate_keeps_settingsLaw _ t law
        · exact law
      exact settingsLaw_same charged rfl rfl rfl rfl rfl
    · exact law
  · exact law

/-- The totalizers stay within their bounds (R60). -/
theorem Totals.inRange_iff (x : Totals) : x.inRange = true ↔ x.distance ≤ 999999999 ∧ x.hired ≤ 999999999 ∧ x.trips ≤ 999999999 ∧
    x.fare ≤ 999999999 ∧ x.extras ≤ 999999999 ∧ x.steps ≤ 999999999 ∧ x.interruptions ≤ 999999999 ∧ x.reported ≤ 999999999 := by
  simp [Totals.inRange]

theorem satAdd_le (bound a b : Nat) : satAdd bound a b ≤ bound := Nat.min_le_right _ _

/-- A change of the totalizers that keeps them within their bounds. -/
theorem settingsLaw_totals {s t : State} (law : SettingsLaw s) (settings : t.settings = s.settings) (clock : t.tariff.clock = s.tariff.clock)
    (dist : t.dist = s.dist) (totals : t.totals.inRange = true) (faults : t.faults = s.faults) : SettingsLaw t := by
  rw [settingsLaw_iff] at *
  obtain ⟨range, time, counter, -, log⟩ := law
  rw [settings, clock, dist, faults]
  exact ⟨range, time, counter, totals, log⟩

theorem closeTrip_keeps_settingsLaw (t : Trip) (total : Nat) {s : State} (law : SettingsLaw s) : SettingsLaw (closeTrip t total s) := by
  refine settingsLaw_depends.keep (ensureFareTotal_frame _) (by decide) (settingsLaw_totals law rfl rfl rfl ?_ rfl)
  obtain ⟨-, -, -, counted, -⟩ := (settingsLaw_iff s).mp law
  obtain ⟨h1, h2, -, -, -, -, h7, h8⟩ := s.totals.inRange_iff.mp counted
  exact (Totals.inRange_iff _).mpr ⟨h1, h2, satAdd_le _ _ _, satAdd_le _ _ _, satAdd_le _ _ _, satAdd_le _ _ _, h7, h8⟩

theorem clear_keeps_settingsLaw (s : State) (law : SettingsLaw s) : SettingsLaw (clear s).1 := by
  unfold clear
  split
  · exact law
  · split
    · exact law
    · rename_i t _ _ total _ _
      have closed := closeTrip_keeps_settingsLaw t total law
      have activated : SettingsLaw (activatePending (closeTrip t total s)) := by
        unfold activatePending
        split
        · exact closed
        · exact settingsLaw_same closed rfl rfl rfl rfl rfl
      refine settingsLaw_depends.keep (dutyChanged_frame _ _) (by decide) (settingsLaw_depends.keep (leaveHired_frame _) (by decide) ?_)
      exact settingsLaw_of activated rfl rfl rfl (Nat.zero_le _) rfl id

theorem takePulse_keeps_settingsLaw (s : State) (law : SettingsLaw s) (set : s.settings.k ≠ 0) : SettingsLaw (takePulse s) := by
  rw [settingsLaw_iff] at *
  obtain ⟨range, time, ⟨-, -, metres⟩, counted, log⟩ := law
  obtain ⟨h1, h2, h3, h4, h5, h6, h7, h8⟩ := s.totals.inRange_iff.mp counted
  refine ⟨range, time, ⟨fun unset => absurd unset set, fun _ => Nat.mod_lt _ (Nat.pos_of_ne_zero set), ?_⟩, ?_, log⟩
  · have bound : ∀ a b, satAdd Config.metresMax a b ≤ 65535 := satAdd_le 65535
    simp only [takePulse, countMetres]
    split
    · split
      · split
        · exact metres
        · exact Nat.zero_le _
      · exact bound _ _
    · exact metres
  · refine (Totals.inRange_iff _).mpr ⟨satAdd_le _ _ _, ?_, h3, h4, h5, h6, h7, h8⟩
    simp only [takePulse, countMetres]
    split
    · exact satAdd_le _ _ _
    · exact h2

theorem ClockReading.tick_inRange {c : ClockReading} (h : c.inRange) : c.tick.inRange := (ClockReading.tick_next h).1

/-- A change of the clock to one in range. -/
theorem settingsLaw_clock {s t : State} (law : SettingsLaw s) (settings : t.settings = s.settings) (clock : t.tariff.clock.inRange)
    (dist : t.dist = s.dist) (totals : t.totals = s.totals) (faults : t.faults = s.faults) : SettingsLaw t := by
  rw [settingsLaw_iff] at *
  obtain ⟨range, -, counter, counted, log⟩ := law
  rw [settings, totals, dist, faults]
  exact ⟨range, clock, counter, counted, log⟩

theorem setClock_keeps_settingsLaw (a b c d : Nat) (s : State) (law : SettingsLaw s) : SettingsLaw (setClock a b c d s).1 := by
  unfold setClock
  split
  · exact law
  · split
    · exact settingsLaw_clock law rfl ‹_› rfl rfl rfl
    · exact law

/-- A change of the settings to others in range, under the same K. -/
theorem settingsLaw_settings {s t : State} (law : SettingsLaw s) (settings : t.settings.inRange = true) (k : t.settings.k = s.settings.k)
    (clock : t.tariff.clock = s.tariff.clock) (dist : t.dist = s.dist) (totals : t.totals = s.totals) (faults : t.faults = s.faults) : SettingsLaw t := by
  rw [settingsLaw_iff] at *
  obtain ⟨-, time, counter, counted, log⟩ := law
  rw [k, clock, dist, totals, faults]
  exact ⟨settings, time, counter, counted, log⟩

/-- The ranges of section 10.5, each on its own. -/
theorem Settings.inRange_iff (x : Settings) : x.inRange = true ↔
    (x.cab = 0 ∧ x.fleet = 0 ∨ (1 ≤ x.cab ∧ x.cab ≤ 4095) ∧ 1 ≤ x.fleet ∧ x.fleet ≤ 255) ∧ (x.k = 0 ∨ 500 ≤ x.k ∧ x.k ≤ 60000) ∧
    (x.airRate = 2400 ∨ x.airRate = 4800) ∧ (10 ≤ x.keyLead ∧ x.keyLead ≤ 100) ∧ (30 ≤ x.statusInterval ∧ x.statusInterval ≤ 600) ∧
    x.urgent.inRange 5 300 = true ∧ x.sustained.inRange 10 600 = true := by
  simp [Settings.inRange, within, and_assoc]

theorem clamp_mem {lo hi : Nat} (h : lo ≤ hi) (v : Nat) : lo ≤ clamp lo hi v ∧ clamp lo hi v ≤ hi := by
  unfold clamp
  omega

/-- A beacon set brought to its bounds is in range (R135). -/
theorem beaconClamp_inRange {least most : Nat} (h : least ≤ most) (count spacing space : Nat) :
    (beaconClamp least most count spacing space).inRange least most = true := by
  simp [BeaconSetting.inRange, beaconClamp, within, clamp_mem, h]

theorem calibrate_keeps_settingsLaw (k : Nat) (s : State) (law : SettingsLaw s) : SettingsLaw (calibrate k s).1 := by
  unfold calibrate
  split
  · exact law
  · split
    · rename_i range
      obtain ⟨least, most⟩ : 500 ≤ k ∧ k ≤ 60000 := by simpa [within] using range
      rw [settingsLaw_iff] at *
      obtain ⟨settings, time, ⟨-, -, metres⟩, counted, log⟩ := law
      obtain ⟨h1, -, h3⟩ := s.settings.inRange_iff.mp settings
      refine ⟨(Settings.inRange_iff _).mpr ⟨h1, .inr ⟨least, most⟩, h3⟩, time, ⟨fun _ => rfl, fun set => Nat.pos_of_ne_zero set, metres⟩, counted, log⟩
    · exact law

theorem setIdentity_keeps_settingsLaw (cab fleet : Nat) (s : State) (law : SettingsLaw s) : SettingsLaw (setIdentity cab fleet s).1 := by
  obtain ⟨-, h⟩ := s.settings.inRange_iff.mp ((settingsLaw_iff s).mp law).1
  unfold setIdentity
  split
  · exact law
  · split
    · refine settingsLaw_settings law ((Settings.inRange_iff _).mpr ⟨.inr ?_, h⟩) rfl rfl rfl rfl rfl
      simp_all [within, done]
    · exact law

theorem setAirRate_keeps_settingsLaw (rate : Nat) (s : State) (law : SettingsLaw s) : SettingsLaw (setAirRate rate s).1 := by
  obtain ⟨h1, h2, -, h3⟩ := s.settings.inRange_iff.mp ((settingsLaw_iff s).mp law).1
  unfold setAirRate
  split
  · exact settingsLaw_settings law ((Settings.inRange_iff _).mpr ⟨h1, h2, ‹_›, h3⟩) rfl rfl rfl rfl rfl
  · exact law

theorem setKeyLead_keeps_settingsLaw (ms : Nat) (s : State) (law : SettingsLaw s) : SettingsLaw (setKeyLead ms s).1 := by
  obtain ⟨h1, h2, h3, -, h4⟩ := s.settings.inRange_iff.mp ((settingsLaw_iff s).mp law).1
  exact settingsLaw_settings law ((Settings.inRange_iff _).mpr ⟨h1, h2, h3, clamp_mem (by omega) ms, h4⟩) rfl rfl rfl rfl rfl

theorem setStatusInterval_keeps_settingsLaw (seconds : Nat) (s : State) (law : SettingsLaw s) : SettingsLaw (setStatusInterval seconds s).1 := by
  obtain ⟨h1, h2, h3, h4, -, h5⟩ := s.settings.inRange_iff.mp ((settingsLaw_iff s).mp law).1
  exact settingsLaw_settings law ((Settings.inRange_iff _).mpr ⟨h1, h2, h3, h4, clamp_mem (by omega) seconds, h5⟩) rfl rfl rfl rfl rfl

theorem setAlarmVisible_keeps_settingsLaw (v : Nat) (s : State) (law : SettingsLaw s) : SettingsLaw (setAlarmVisible v s).1 := by
  have range := ((settingsLaw_iff s).mp law).1
  unfold setAlarmVisible
  split
  · exact settingsLaw_settings law range rfl rfl rfl rfl rfl
  · exact settingsLaw_settings law range rfl rfl rfl rfl rfl
  · exact law

theorem setUrgentSet_keeps_settingsLaw (a b c : Nat) (s : State) (law : SettingsLaw s) : SettingsLaw (setUrgentSet a b c s).1 := by
  obtain ⟨h1, h2, h3, h4, h5, -, h6⟩ := s.settings.inRange_iff.mp ((settingsLaw_iff s).mp law).1
  exact settingsLaw_settings law ((Settings.inRange_iff _).mpr ⟨h1, h2, h3, h4, h5, beaconClamp_inRange (by omega) a b c, h6⟩) rfl rfl rfl rfl rfl

theorem setSustainedSet_keeps_settingsLaw (a b c : Nat) (s : State) (law : SettingsLaw s) : SettingsLaw (setSustainedSet a b c s).1 := by
  obtain ⟨h1, h2, h3, h4, h5, h6, -⟩ := s.settings.inRange_iff.mp ((settingsLaw_iff s).mp law).1
  exact settingsLaw_settings law ((Settings.inRange_iff _).mpr ⟨h1, h2, h3, h4, h5, h6, beaconClamp_inRange (by omega) a b c⟩) rfl rfl rfl rfl rfl

theorem setSensitivity_keeps_settingsLaw (l : AlarmLine) (v : Nat) (s : State) (law : SettingsLaw s) : SettingsLaw (setSensitivity l v s).1 := by
  have range := ((settingsLaw_iff s).mp law).1
  unfold setSensitivity
  split
  · exact law
  · split
    · simp only [done, changeSensitivity]
      split
      · exact law
      · refine settingsLaw_depends.keep (setLine_frame _ _ _) (by decide) ?_
        cases l <;> exact settingsLaw_settings law range rfl rfl rfl rfl rfl
    · exact law

theorem takeStuck_keeps_settingsLaw (l : AlarmLine) (s : State) (law : SettingsLaw s) : SettingsLaw (takeStuck l s) := by
  unfold takeStuck
  split
  · exact placeFault_keeps_settingsLaw _ _ (settingsLaw_depends.keep (setLine_frame _ _ _) (by decide) law)
  · exact law

/-! ## The fares reported (R58), losses and starts -/

theorem fareTotalAcknowledged_keeps_settingsLaw (s : State) (law : SettingsLaw s) : SettingsLaw (fareTotalAcknowledged s) := by
  unfold fareTotalAcknowledged
  split
  · exact law
  · refine settingsLaw_depends.keep (ensureFareTotal_frame _) (by decide) (settingsLaw_totals law rfl rfl rfl ?_ rfl)
    obtain ⟨-, -, -, counted, -⟩ := (settingsLaw_iff s).mp law
    obtain ⟨h1, h2, h3, h4, h5, h6, h7, -⟩ := s.totals.inRange_iff.mp counted
    exact (Totals.inRange_iff _).mpr ⟨h1, h2, h3, h4, h5, h6, h7, satAdd_le _ _ _⟩

theorem ownerAcknowledged_keeps_settingsLaw (e : Entry) (s : State) (law : SettingsLaw s) : SettingsLaw (ownerAcknowledged e s) := by
  unfold ownerAcknowledged
  split
  case h_1 => exact law
  case h_2 => exact settingsLaw_depends.keep (acceptAcknowledged_frame _ s) (by decide) law
  case h_4 => exact fareTotalAcknowledged_keeps_settingsLaw s law
  case h_6 => exact settingsLaw_depends.keep (statusAcknowledged_frame _ s) (by decide) law
  case h_8 =>
    exact settingsLaw_depends.keep (queueWaiting_frame _) (by decide) (settingsLaw_depends.keep (resolveOutbound_frame _ _ s) (by decide) law)
  all_goals exact settingsLaw_depends.keep (queueWaiting_frame s) (by decide) law

/-- What is not retained of the parts concerned is the Distance Counter, which a loss and a start put to 0 (R178). -/
theorem resetVolatile_keeps_settingsLaw (p : Power) (s : State) (law : SettingsLaw s) : SettingsLaw { resetVolatile s with power := p } := by
  rw [settingsLaw_iff] at *
  obtain ⟨settings, time, -, counted, log⟩ := law
  exact ⟨settings, time, ⟨fun _ => rfl, fun set => Nat.pos_of_ne_zero set, Nat.zero_le _⟩, counted, log⟩

theorem checkActive_keeps_settingsLaw (s : State) (law : SettingsLaw s) : SettingsLaw (checkActive s) := by
  unfold checkActive
  split
  · split
    · exact law
    · exact placeFault_keeps_settingsLaw _ _ (settingsLaw_same law rfl rfl rfl rfl rfl)
  · exact law

theorem checkPending_keeps_settingsLaw (s : State) (law : SettingsLaw s) : SettingsLaw (checkPending s) := by
  unfold checkPending
  split
  · split
    · exact law
    · exact placeFault_keeps_settingsLaw _ _ (settingsLaw_same law rfl rfl rfl rfl rfl)
  · exact law

theorem continueTrip_keeps_settingsLaw (s : State) (law : SettingsLaw s) : SettingsLaw (continueTrip s) := by
  unfold continueTrip
  split
  · exact law
  · split
    · refine settingsLaw_depends.keep (noticeMeter_frame _ _) (by decide) (placeFault_keeps_settingsLaw _ _ (settingsLaw_totals law rfl rfl rfl ?_ rfl))
      obtain ⟨-, -, -, counted, -⟩ := (settingsLaw_iff s).mp law
      obtain ⟨h1, h2, h3, h4, h5, h6, -, h8⟩ := s.totals.inRange_iff.mp counted
      exact (Totals.inRange_iff _).mpr ⟨h1, h2, h3, h4, h5, h6, satAdd_le _ _ _, h8⟩
    · unfold keepStopped
      split <;> exact law

theorem warmSteps_keeps_settingsLaw (reach : StartReach) (s : State) (law : SettingsLaw s) : SettingsLaw (warmSteps reach s) := by
  have found := resetVolatile_keeps_settingsLaw .up s law
  have images := checkPending_keeps_settingsLaw _ (checkActive_keeps_settingsLaw _ found)
  cases reach with
  | kind => exact found
  | activeImage => exact checkActive_keeps_settingsLaw _ found
  | images => exact images
  | trip => exact continueTrip_keeps_settingsLaw _ images
  | emergency => exact settingsLaw_depends.keep (continueEmergency_frame _) (by decide) (continueTrip_keeps_settingsLaw _ images)

theorem settingsLaw_cold (s : State) : SettingsLaw (coldStart s) := by
  rw [settingsLaw_iff]
  refine ⟨rfl, rfl, ⟨fun _ => rfl, fun h => absurd rfl h, Nat.zero_le _⟩, rfl, ?_⟩
  simp [coldStart, State.reset]

/-- What the law of the settings and counters takes of each owner that touches them. -/
theorem settingsLaw_beyond : KeptBeyond [.settings, .tariff, .dist, .totals, .faults] SettingsLaw where
  tick := .inr fun s law => settingsLaw_clock law rfl (ClockReading.tick_inRange ((settingsLaw_iff s).mp law).2.1) rfl rfl rfl
  pulse := .inr takePulse_keeps_settingsLaw
  evaluation := .inr fun s law _ => takeEvaluation_keeps_settingsLaw s law
  flagDown := .inr flagDown_keeps_settingsLaw
  stop := .inr stop_keeps_settingsLaw
  clear := .inr clear_keeps_settingsLaw
  loadTariffPart := .inr fun p c s law => by
    unfold loadTariffPart
    split
    · split <;> exact law
    · exact law
  commitTariff := .inr fun n s law => by
    unfold commitTariff
    split
    · exact law
    · split
      · simp only [done, commitImage]
        split <;> exact law
      · exact law
  setClock := .inr setClock_keeps_settingsLaw
  calibrate := .inr calibrate_keeps_settingsLaw
  setIdentity := .inr setIdentity_keeps_settingsLaw
  setAirRate := .inr setAirRate_keeps_settingsLaw
  setKeyLead := .inr setKeyLead_keeps_settingsLaw
  setStatusInterval := .inr setStatusInterval_keeps_settingsLaw
  setAlarmVisible := .inr setAlarmVisible_keeps_settingsLaw
  setUrgentSet := .inr setUrgentSet_keeps_settingsLaw
  setSustainedSet := .inr setSustainedSet_keeps_settingsLaw
  setSensitivity := .inr setSensitivity_keeps_settingsLaw
  clearFaults := .inr fun s law => by
    unfold clearFaults
    split
    · exact law
    · exact settingsLaw_of law rfl rfl rfl le_rfl rfl fun _ => Nat.zero_le _
  head := .inr fun h s law _ _ => settingsLaw_depends.takeHead (by decide)
    (fun e s => settingsLaw_depends.keep (ownerFailed_frame e s) (by decide)) ownerAcknowledged_keeps_settingsLaw h s law
  stuck := .inr takeStuck_keeps_settingsLaw
  damage := .inr ⟨fun s law => law, fun s law => law⟩
  down s law := resetVolatile_keeps_settingsLaw .down s law
  abandoned reach s law := resetVolatile_keeps_settingsLaw .down _ (warmSteps_keeps_settingsLaw reach s law)
  cold := settingsLaw_cold
  warm s law := settingsLaw_depends.keep (restartBeacon_frame _) (by decide)
    (settingsLaw_depends.keep (ensureFareTotal_frame _) (by decide) (warmSteps_keeps_settingsLaw .emergency s law))

/-- Settles O15: the ranges are kept by every owner that touches them, and the check value by the update that goes with every change. -/
theorem settingsLawIsKept : Obligations.SettingsLawIsKept := fun s t stepped =>
  ⟨fun law => keeps_of_owners (settingsLaw_beyond.keptByOwners settingsLaw_depends) s t law stepped, fun law => step_keeps_domainLaw law stepped⟩

end Sys2Proof.Machine
end

section
/-! PROOFS. What each command can change (00 section 2), and that each completes. -/

namespace Sys2Proof.Machine

open Sys2Proof

/-! ## Requests -/

/-- Replacing a port's state changes what a request of that port may. -/
theorem setPort_port (p : Port) (v : PortState) (s : State) : changesOnly (requestFields p) s (setPort p v s) := by
  cases p
  · exact changesOnly_mono (setMeterPort_frame v s) (by decide)
  · exact changesOnly_mono (setTerminalPort_frame v s) (by decide)

/-- A request changes what a request of its port may and what its owner does. -/
theorem request_frame {p : Port} {i : Instr} {owner : State → Reply} {G F : List Field} (own : ∀ u, changesOnly G u (owner u).1) (s : State)
    (port : ∀ f ∈ requestFields p, f ∈ F) (rest : ∀ f ∈ G, f ∈ F) : changesOnly F s (request p i owner s) := by
  have dropped := changesOnly_mono (frameReceived_port p s) port
  have arrived := changesOnly_mono (arrived_port p i s) port
  have owned := changesOnly_mono (own (Machine.arrived p i s)) rest
  unfold request
  split
  · exact changesOnly_trans (changesOnly_trans arrived owned) (changesOnly_mono (setPort_port p _ _) port)
  · exact dropped

/-- A read changes what a request of its port may. -/
theorem request_read_frame {p : Port} {i : Instr} {owner : State → Reply} (own : ∀ u, (owner u).1 = u) (s : State) :
    changesOnly (requestFields p) s (request p i owner s) :=
  request_frame (G := []) (fun u => by rw [own u]; exact changesOnly_refl _ u) s (fun _ h => h) (by simp)

theorem setNotices_port (p : Port) (enable : Nat) (s : State) : changesOnly (requestFields p) s (setNotices p enable s).1 := by
  unfold setNotices
  split
  · exact setPort_port p _ s
  · exact changesOnly_refl _ s

theorem signOf_port (p : Port) (s : State) : changesOnly (requestFields p) s (signOf p s) := by
  cases p
  · exact changesOnly_refl _ s
  · exact changesOnly_mono (terminalSign_frame s) (by decide)

theorem takeReadReply_port (p : Port) (s : State) : changesOnly (requestFields p) s (takeReadReply p s) :=
  changesOnly_trans (signOf_port p s) (setPort_port p _ _)

theorem takeReadNotices_port (p : Port) (s : State) : changesOnly (requestFields p) s (takeReadNotices p s) := by
  unfold takeReadNotices
  split
  · exact changesOnly_trans (signOf_port p s) (setPort_port p _ _)
  · exact changesOnly_trans (setPort_port p _ s) (signOf_port p _)

theorem handOn_port (p : Port) (code : Nat) (h : Handed) (s : State) : changesOnly (requestFields p) s (handOn p code h s) := by
  have handed : changesOnly [.handed] s { s with handed := s.handed ++ [(p, h)] } := by
    intro f hf
    cases f <;> simp_all [Field.same]
  exact changesOnly_trans (changesOnly_mono handed (by cases p <;> decide)) (setPort_port p _ _)

theorem takeTransaction_port (p : Port) (bytes : List Byte) (s : State) : changesOnly (requestFields p) s (takeTransaction p bytes s) := by
  have idle : changesOnly (requestFields p) s (driveIdle p s) := setPort_port p _ s
  have framed : ∀ code args u, changesOnly (requestFields p) u (takeFrame p code args u) := fun code args u => by
    unfold takeFrame
    split
    · exact changesOnly_refl _ u
    · split
      · exact setPort_port p _ u
      · exact setPort_port p _ u
      · exact handOn_port p _ _ u
      · exact handOn_port p _ _ u
  unfold takeTransaction
  split
  · split
    · exact takeReadReply_port p s
    · split
      · exact takeReadNotices_port p s
      · split
        · exact idle
        · exact changesOnly_trans (frameReceived_port p s) (framed _ _ _)
  · split
    · exact changesOnly_refl _ s
    · exact idle
  · exact changesOnly_refl _ s

/-! ## Frames from the air -/

/-- A frame delivered as its command changes what that command may. -/
theorem deliver_frame (i : Instr) (s : State) :
    changesOnly [.draws, .offers, .terminal, .duty, .closed, .totals, .radio, .pool, .messages, .trip, .alarm, .meter] s (deliver i s) := by
  unfold deliver
  split
  · exact receive_frame (changesOnly_mono (takeHead_frame _ s) (by decide))
  · exact receive_frame (changesOnly_mono (takeOffer_frame _ _ s) (by decide))
  · exact receive_frame (changesOnly_mono (takeAward_frame _ s) (by decide))
  · exact receive_frame (changesOnly_mono (takeLost_frame _ s) (by decide))
  · exact receive_frame (changesOnly_mono (takeWithdraw_frame _ s) (by decide))
  · exact receive_frame (changesOnly_mono (cancelJob_frame _ s) (by decide))
  · exact receive_frame (changesOnly_mono (refreshStatus_frame _ s) (by decide))
  · exact receive_frame (changesOnly_mono (takeMessage_frame _ _ _ _ s) (by decide))
  · exact receive_frame (changesOnly_mono (takeAlertSeen_frame s) (by decide))
  · exact receive_frame (changesOnly_mono (takeStandDown_frame s) (by decide))
  · exact receive_frame (changesOnly_mono (takeBeaconHold_frame _ s) (by decide))
  · exact changesOnly_refl _ s

/-! ## Losses and starts -/

theorem coldStart_frame (s : State) : changesOnly (mayChange .start) s (coldStart s) := by
  intro f hf
  cases f <;> first | rfl | exact absurd (by decide) hf

theorem startAs_frame {warm : State → State} {s : State} (frame : changesOnly (mayChange .start) s (warm s)) :
    changesOnly (mayChange .start) s (startAs warm s) := by
  unfold startAs
  split
  · exact changesOnly_trans frame (changesOnly_mono (sealDomain_frame _) (by simp))
  · exact coldStart_frame s

theorem losePower_frame (fate : DomainFate) (s : State) : changesOnly (mayChange (.vmainLossOrReset fate)) s (losePower fate s) := by
  have down := goDown_frame s
  have check : ∀ (v : Check) (x : State), changesOnly [] x { x with domainCheck := v } := fun v x => domainCheck_frame x v
  have damaged : ∀ (x y : State), changesOnly [.tariff] x y → changesOnly [.tariff] x (hideDamage x y) := fun x y h =>
    changesOnly_trans h (changesOnly_mono (check _ y) (by simp))
  cases fate with
  | kept => exact down
  | lost => exact changesOnly_trans down (changesOnly_mono (check _ _) (by simp))
  | activeDamaged => exact changesOnly_trans down (changesOnly_mono (damaged _ _ (damageActive_frame _)) (by decide))
  | pendingDamaged => exact changesOnly_trans down (changesOnly_mono (damaged _ _ (damagePending_frame _)) (by decide))
  | bothDamaged =>
    exact changesOnly_trans down
      (changesOnly_mono (damaged _ _ (changesOnly_trans (damagePending_frame _) (damageActive_frame _))) (by decide))
  | leftByStart reach =>
    have started := startAs_frame (changesOnly_mono (warmSteps_frame reach (goDown s)) (by decide))
    exact changesOnly_trans (changesOnly_trans (changesOnly_mono down (by simp only [mayChange]; decide)) started)
      (changesOnly_mono (goDown_frame _) (by simp only [mayChange]; decide))

/-! ## Every command -/

/-- Each command changes only the parts listed for it. -/
theorem exec_frame {c : Instr} {s t : State} (h : exec c s = .next t) : changesOnly (mayChange c) s t := by
  cases c
  case flagDown m n => exact whenUp_frame (request_frame (p := .meter) (flagDown_frame m n) s (by simp only [mayChange]; decide) (by simp only [mayChange]; decide)) h
  case stop => exact whenUp_frame (request_frame (p := .meter) (stop_frame) s (by simp only [mayChange]; decide) (by simp only [mayChange]; decide)) h
  case resume => exact whenUp_frame (request_frame (p := .meter) (resume_frame) s (by simp only [mayChange]; decide) (by simp only [mayChange]; decide)) h
  case clear => exact whenUp_frame (request_frame (p := .meter) (clear_frame) s (by simp only [mayChange]; decide) (by simp only [mayChange]; decide)) h
  case addExtra n => exact whenUp_frame (request_frame (p := .meter) (addExtra_frame n) s (by simp only [mayChange]; decide) (by simp only [mayChange]; decide)) h
  case loadTariffPart p x => exact whenUp_frame (request_frame (p := .meter) (loadTariffPart_frame p x) s (by simp only [mayChange]; decide) (by simp only [mayChange]; decide)) h
  case commitTariff n => exact whenUp_frame (request_frame (p := .meter) (commitTariff_frame n) s (by simp only [mayChange]; decide) (by simp only [mayChange]; decide)) h
  case setClock a b d e => exact whenUp_frame (request_frame (p := .meter) (setClock_frame a b d e) s (by simp only [mayChange]; decide) (by simp only [mayChange]; decide)) h
  case calibrate n => exact whenUp_frame (request_frame (p := .meter) (calibrate_frame n) s (by simp only [mayChange]; decide) (by simp only [mayChange]; decide)) h
  case setIdentity m n => exact whenUp_frame (request_frame (p := .meter) (setIdentity_frame m n) s (by simp only [mayChange]; decide) (by simp only [mayChange]; decide)) h
  case setAirRate n => exact whenUp_frame (request_frame (p := .meter) (setAirRate_frame n) s (by simp only [mayChange]; decide) (by simp only [mayChange]; decide)) h
  case setKeyLead n => exact whenUp_frame (request_frame (p := .meter) (setKeyLead_frame n) s (by simp only [mayChange]; decide) (by simp only [mayChange]; decide)) h
  case setStatusInterval n => exact whenUp_frame (request_frame (p := .meter) (setStatusInterval_frame n) s (by simp only [mayChange]; decide) (by simp only [mayChange]; decide)) h
  case setAlarmVisible n => exact whenUp_frame (request_frame (p := .meter) (setAlarmVisible_frame n) s (by simp only [mayChange]; decide) (by simp only [mayChange]; decide)) h
  case setUrgentSet a b d => exact whenUp_frame (request_frame (p := .meter) (setUrgentSet_frame a b d) s (by simp only [mayChange]; decide) (by simp only [mayChange]; decide)) h
  case setSustainedSet a b d => exact whenUp_frame (request_frame (p := .meter) (setSustainedSet_frame a b d) s (by simp only [mayChange]; decide) (by simp only [mayChange]; decide)) h
  case setSensitivity l n => exact whenUp_frame (request_frame (p := .meter) (setSensitivity_frame l n) s (by simp only [mayChange]; decide) (by simp only [mayChange]; decide)) h
  case clearFaults => exact whenUp_frame (request_frame (p := .meter) (clearFaults_frame) s (by simp only [mayChange]; decide) (by simp only [mayChange]; decide)) h
  case signOn => exact whenUp_frame (request_frame (p := .terminal) (signOn_frame) s (by simp only [mayChange]; decide) (by simp only [mayChange]; decide)) h
  case signOff => exact whenUp_frame (request_frame (p := .terminal) (signOff_frame) s (by simp only [mayChange]; decide) (by simp only [mayChange]; decide)) h
  case soonClear n => exact whenUp_frame (request_frame (p := .terminal) (soonClear_frame n) s (by simp only [mayChange]; decide) (by simp only [mayChange]; decide)) h
  case cancelClear => exact whenUp_frame (request_frame (p := .terminal) (cancelClear_frame) s (by simp only [mayChange]; decide) (by simp only [mayChange]; decide)) h
  case noShow => exact whenUp_frame (request_frame (p := .terminal) (noShow_frame) s (by simp only [mayChange]; decide) (by simp only [mayChange]; decide)) h
  case setZones z => exact whenUp_frame (request_frame (p := .terminal) (setZones_frame z) s (by simp only [mayChange]; decide) (by simp only [mayChange]; decide)) h
  case setOfferMode n => exact whenUp_frame (request_frame (p := .terminal) (setOfferMode_frame n) s (by simp only [mayChange]; decide) (by simp only [mayChange]; decide)) h
  case accept n => exact whenUp_frame (request_frame (p := .terminal) (accept_frame n) s (by simp only [mayChange]; decide) (by simp only [mayChange]; decide)) h
  case decline n => exact whenUp_frame (request_frame (p := .terminal) (decline_frame n) s (by simp only [mayChange]; decide) (by simp only [mayChange]; decide)) h
  case dismiss n => exact whenUp_frame (request_frame (p := .terminal) (dismiss_frame n) s (by simp only [mayChange]; decide) (by simp only [mayChange]; decide)) h
  case markRead n => exact whenUp_frame (request_frame (p := .terminal) (markRead_frame n) s (by simp only [mayChange]; decide) (by simp only [mayChange]; decide)) h
  case delete n => exact whenUp_frame (request_frame (p := .terminal) (delete_frame n) s (by simp only [mayChange]; decide) (by simp only [mayChange]; decide)) h
  case reply n a x => exact whenUp_frame (request_frame (p := .terminal) (reply_frame n a x) s (by simp only [mayChange]; decide) (by simp only [mayChange]; decide)) h
  case sendMessage a x => exact whenUp_frame (request_frame (p := .terminal) (sendMessage_frame none a x) s (by simp only [mayChange]; decide) (by simp only [mayChange]; decide)) h
  case dismissOutbound n => exact whenUp_frame (request_frame (p := .terminal) (dismissOutbound_frame n) s (by simp only [mayChange]; decide) (by simp only [mayChange]; decide)) h
  case setPosition a b => exact whenUp_frame (request_frame (p := .terminal) (setPosition_frame a b) s (by simp only [mayChange]; decide) (by simp only [mayChange]; decide)) h
  case setPriority a b => exact whenUp_frame (request_frame (p := .terminal) (setPriority_frame a b) s (by simp only [mayChange]; decide) (by simp only [mayChange]; decide)) h
  case alarmCancel => exact whenUp_frame (request_frame (p := .terminal) (alarmCancel_frame) s (by simp only [mayChange]; decide) (by simp only [mayChange]; decide)) h
  case evaluation => exact whenUp_frame (changesOnly_mono (takeEvaluation_frame s) (by simp only [mayChange]; decide)) h
  case backoffEnd n => exact whenUp_frame (changesOnly_mono (takeBackoffEnd_frame n s) (by simp only [mayChange]; decide)) h
  case retryLimitReached n => exact whenUp_frame (changesOnly_mono (takeRetryLimit_frame n s) (by simp only [mayChange]; decide)) h
  case linkLost => exact whenUp_frame (changesOnly_mono (takeLinkLost_frame s) (by simp only [mayChange]; decide)) h
  case contentionSlot => exact whenUp_frame (changesOnly_mono (takeContention_frame s) (by simp only [mayChange]; decide)) h
  case reservedSlot n => exact whenUp_frame (changesOnly_mono (takeReserved_frame n s) (by simp only [mayChange]; decide)) h
  case transmissionEnd => exact whenUp_frame (changesOnly_mono (takeTransmissionEnd_frame s) (by simp only [mayChange]; decide)) h
  case blindTransmissionEnd => exact whenUp_frame (changesOnly_mono (takeBlindEnd_frame s) (by simp only [mayChange]; decide)) h
  case alarmLineLevel a b => exact whenUp_frame (changesOnly_mono (takeLevels_frame a b s) (by simp only [mayChange]; decide)) h
  case lineArmed l v => exact whenUp_frame (changesOnly_mono (takeArmed_frame l v s) (by simp only [mayChange]; decide)) h
  case alarmLineStuck l => exact whenUp_frame (changesOnly_mono (takeStuck_frame l s) (by simp only [mayChange]; decide)) h
  case cancelWindowExpiry => exact whenUp_frame (changesOnly_mono (takeCancelExpiry_frame s) (by simp only [mayChange]; decide)) h
  case beaconCycleStart => exact whenUp_frame (changesOnly_mono (takeCycleStart_frame s) (by simp only [mayChange]; decide)) h
  case beaconBurst => exact whenUp_frame (changesOnly_mono (takeBurst_frame s) (by simp only [mayChange]; decide)) h
  case resumeWindowExpiry => exact whenUp_frame (changesOnly_mono (takeResumeExpiry_frame s) (by simp only [mayChange]; decide)) h
  case statusIntervalExpiry => exact whenUp_frame (changesOnly_mono (takeStatusInterval_frame s) (by simp only [mayChange]; decide)) h
  case presenceTimerExpiry => exact whenUp_frame (changesOnly_mono (takePresenceExpiry_frame s) (by simp only [mayChange]; decide)) h
  case deadlineExpiry n => exact whenUp_frame (changesOnly_mono (takeDeadline_frame n s) (by simp only [mayChange]; decide)) h
  case awardTimerExpiry n => exact whenUp_frame (changesOnly_mono (takeAwardExpiry_frame n s) (by simp only [mayChange]; decide)) h
  case cycleHead a x => exact whenUp_frame (receive_frame (changesOnly_mono (takeHead_frame x s) (by simp only [mayChange]; decide))) h
  case offer a o => exact whenUp_frame (receive_frame (changesOnly_mono (takeOffer_frame a o s) (by simp only [mayChange]; decide))) h
  case award a n => exact whenUp_frame (receive_frame (changesOnly_mono (takeAward_frame n s) (by simp only [mayChange]; decide))) h
  case lost a n => exact whenUp_frame (receive_frame (changesOnly_mono (takeLost_frame n s) (by simp only [mayChange]; decide))) h
  case withdraw a n => exact whenUp_frame (receive_frame (changesOnly_mono (takeWithdraw_frame n s) (by simp only [mayChange]; decide))) h
  case jobCancel a n => exact whenUp_frame (receive_frame (changesOnly_mono (cancelJob_frame n s) (by simp only [mayChange]; decide))) h
  case poll a => exact whenUp_frame (receive_frame (changesOnly_mono (refreshStatus_frame _ s) (by simp only [mayChange]; decide))) h
  case message a n d x => exact whenUp_frame (receive_frame (changesOnly_mono (takeMessage_frame a n _ x s) (by simp only [mayChange]; decide))) h
  case alertSeen a => exact whenUp_frame (receive_frame (changesOnly_mono (takeAlertSeen_frame s) (by simp only [mayChange]; decide))) h
  case standDown a => exact whenUp_frame (receive_frame (changesOnly_mono (takeStandDown_frame s) (by simp only [mayChange]; decide))) h
  case beaconHold a n => exact whenUp_frame (receive_frame (changesOnly_mono (takeBeaconHold_frame n s) (by simp only [mayChange]; decide))) h
  case distPulse =>
    have pulse : changesOnly [.totals, .dist] s (if s.settings.k = 0 then s else takePulse s) :=
      changesOnly_ite (changesOnly_refl _ s) (takePulse_frame s)
    exact whenUp_frame (f := fun s => if s.settings.k = 0 then s else takePulse s) pulse h
  case clockTick =>
    obtain rfl : (if s.tariff.clock.isSet then { s with tariff := { s.tariff with clock := s.tariff.clock.tick } } else s) = t := by
      simpa [exec, execClockTick] using h
    exact changesOnly_ite (clockTick_frame s) (changesOnly_refl _ s)
  case start =>
    obtain rfl : startAs warmStart s = t := by simpa [exec, execStart] using h
    exact startAs_frame (changesOnly_mono (warmStart_frame s) (by decide))
  case vmainLossOrReset fate =>
    obtain rfl : losePower fate s = t := by simpa [exec, execVmainLossOrReset] using h
    exact losePower_frame fate s
  case airFrameDropped x b =>
    refine whenUp_frame (f := takeAirFrame x b) ?_ h
    unfold takeAirFrame
    split
    · exact changesOnly_refl _ s
    · split
      · exact changesOnly_refl _ s
      · exact deliver_frame _ s
  case requestFrameReceived p x => exact whenUp_frame (takeTransaction_port p x s) h
  case readReply p => exact whenUp_frame (takeReadReply_port p s) h
  case readNotices p => exact whenUp_frame (takeReadNotices_port p s) h
  case setNotices p n => exact whenUp_frame (request_frame (setNotices_port p n) s (fun _ h => h) (fun _ h => h)) h
  case readTrip p => exact whenUp_frame (request_read_frame (p := p) (fun _ => rfl) s) h
  case readClosed n => exact whenUp_frame (request_read_frame (p := .meter) (fun u => readPosition_state _ _ _ _ u) s) h
  case readTotals => exact whenUp_frame (request_read_frame (p := .meter) (fun _ => rfl) s) h
  case readTariffCheck => exact whenUp_frame (request_read_frame (p := .meter) (fun _ => rfl) s) h
  case readClock => exact whenUp_frame (request_read_frame (p := .meter) (fun _ => rfl) s) h
  case readInstallation => exact whenUp_frame (request_read_frame (p := .meter) (fun _ => rfl) s) h
  case readEmergency => exact whenUp_frame (request_read_frame (p := .meter) (fun _ => rfl) s) h
  case readFaults => exact whenUp_frame (request_read_frame (p := .meter) (fun _ => rfl) s) h
  case readJob n => exact whenUp_frame (request_read_frame (p := .terminal) (fun u => readJob_state _ u) s) h
  case readOffer n => exact whenUp_frame (request_read_frame (p := .terminal) (fun u => readPosition_state _ _ _ _ u) s) h
  case readMessage n => exact whenUp_frame (request_read_frame (p := .terminal) (fun u => readPosition_state _ _ _ _ u) s) h
  case readOutbound n => exact whenUp_frame (request_read_frame (p := .terminal) (fun u => readPosition_state _ _ _ _ u) s) h
  case readPriorities => exact whenUp_frame (request_read_frame (p := .terminal) (fun _ => rfl) s) h
  case readStatus => exact whenUp_frame (request_read_frame (p := .terminal) (fun _ => rfl) s) h

/-- Settles O3: a frame for each command, and the update of the check value that goes with every change. -/
theorem commandsChangeOnlyTheirFields : Obligations.CommandsChangeOnlyTheirFields := fun _ _ _ h =>
  ⟨exec_frame h, exec_agrees h, fun tick => exec_clockTick_check (tick ▸ h)⟩

/-! ## Commands complete -/

/-- Settles O2: every command and every step answers a next state. -/
theorem everyCommandCompletes : Obligations.EveryCommandCompletes := by
  have completes : ∀ (c : Instr) (s : State), ∃ t, exec c s = .next t := fun c s => by cases c <;> exact ⟨_, rfl⟩
  refine ⟨completes, fun s => ?_⟩
  unfold step
  split
  · exact completes _ _
  · split
    · exact completes _ s
    · exact ⟨_, rfl⟩
    · exact ⟨_, rfl⟩

end Sys2Proof.Machine
end

section
/-! PROOFS. The legal fare is out of reach of the terminal controller and of the air (00 section 1); the laws hold at a cold start (00 section 5.6). -/

namespace Sys2Proof.Machine

open Sys2Proof

/-! ## The legal fare (00 section 1) -/

/-- A change of the job it serves leaves a trip's legal fare. -/
theorem legal_of_tripJob {s t : Option Trip} (h : ∃ f : Option TripJob → Option TripJob, t = s.map (fun x => { x with job := f x.job })) :
    t.map Trip.legal = s.map Trip.legal := by
  obtain ⟨f, rfl⟩ := h
  cases s <;> rfl

theorem cancelJob_legal (n : Nat) (s : State) : (cancelJob n s).trip.map Trip.legal = s.trip.map Trip.legal := legal_of_tripJob (cancelJob_trip n s)

theorem takeWithdraw_legal (n : Nat) (s : State) : (takeWithdraw n s).trip.map Trip.legal = s.trip.map Trip.legal :=
  legal_of_tripJob (takeWithdraw_trip n s)

/-- What leaves the trip leaves its legal fare. -/
theorem legal_of_frame {F : List Field} {s t : State} (frame : changesOnly F s t) (rest : Field.trip ∉ F := by decide) :
    t.trip.map Trip.legal = s.trip.map Trip.legal := by
  rw [show t.trip = s.trip from frame .trip rest]

/-- A frame received leaves it if what it does, taken, leaves it. -/
theorem receive_legal {c : Instr} {taken : Bool} {f : State → State} {s : State} (h : (f s).trip.map Trip.legal = s.trip.map Trip.legal) :
    (receive c taken f s).trip.map Trip.legal = s.trip.map Trip.legal := by
  unfold receive
  split
  · exact h
  · rfl

theorem deliver_legal (i : Instr) (s : State) : (deliver i s).trip.map Trip.legal = s.trip.map Trip.legal := by
  unfold deliver
  split
  · exact receive_legal (legal_of_frame (takeHead_frame _ s))
  · exact receive_legal (legal_of_frame (takeOffer_frame _ _ s))
  · exact receive_legal (legal_of_frame (takeAward_frame _ s))
  · exact receive_legal (legal_of_frame (takeLost_frame _ s))
  · exact receive_legal (takeWithdraw_legal _ s)
  · exact receive_legal (cancelJob_legal _ s)
  · exact receive_legal (legal_of_frame (refreshStatus_frame _ s))
  · exact receive_legal (legal_of_frame (takeMessage_frame _ _ _ _ s))
  · exact receive_legal (legal_of_frame (takeAlertSeen_frame s))
  · exact receive_legal (legal_of_frame (takeStandDown_frame s))
  · exact receive_legal (legal_of_frame (takeBeaconHold_frame _ s))
  · rfl

theorem takeAirFrame_legal (x : List Byte) (b : Bool) (s : State) : (takeAirFrame x b s).trip.map Trip.legal = s.trip.map Trip.legal := by
  unfold takeAirFrame
  split
  · rfl
  · split
    · rfl
    · exact deliver_legal _ s

theorem whenUp_legal {f : State → State} {s t : State} (f_legal : (f s).trip.map Trip.legal = s.trip.map Trip.legal) (h : whenUp f s = .next t) :
    t.trip.map Trip.legal = s.trip.map Trip.legal := by
  obtain rfl : (if s.power = .up then sealDomain (f s) else s) = t := by simpa [whenUp] using h
  split
  · exact f_legal
  · rfl

/-- The parts that the terminal controller and the air can reach. -/
def reachable : List Field := [.draws, .handed, .trip, .closed, .totals, .duty, .pool, .offers, .messages, .alarm, .radio, .meter, .terminal]

/-- Only a job that the air ends touches the trip record, and of that the job alone (R47). -/
theorem exec_legal {c : Instr} {s t : State} (outside : fromTerminalOrAir c = true) (h : exec c s = .next t) :
    t.trip.map Trip.legal = s.trip.map Trip.legal := by
  by_cases trip : Field.trip ∈ mayChange c
  · cases c
    case withdraw a n => exact whenUp_legal (receive_legal (takeWithdraw_legal n s)) h
    case jobCancel a n => exact whenUp_legal (receive_legal (cancelJob_legal n s)) h
    case airFrameDropped x b => exact whenUp_legal (takeAirFrame_legal x b s) h
    all_goals simp_all [mayChange, requestFields, fromTerminalOrAir, requestPort]
  · exact legal_of_frame (exec_frame h) trip

/-- None of their commands may change anything else. -/
theorem mayChange_reachable {c : Instr} (outside : fromTerminalOrAir c = true) : ∀ f ∈ mayChange c, f ∈ reachable := by
  cases c
  case readTrip p | setNotices p _ | readReply p | readNotices p | requestFrameReceived p _ =>
    obtain rfl : p = .terminal := by simpa [fromTerminalOrAir, requestPort] using outside
    simp [mayChange, requestFields, reachable]
  all_goals simp_all [mayChange, requestFields, reachable, fromTerminalOrAir, requestPort]

/-- Settles O4: their commands reach none of the parts of the legal fare but the trip record, of which they change the job alone. -/
theorem terminalAndAirCannotTouchTheFare : Obligations.TerminalAndAirCannotTouchTheFare := fun _ _ _ outside h =>
  ⟨changesOnly_mono (exec_frame h) (mayChange_reachable outside), exec_legal outside h⟩

/-! ## The laws at a cold start -/

/-- Settles O6: each law holds of the state that a cold start leaves. -/
theorem lawsHoldAtReset : Obligations.LawsHoldAtReset := by
  obtain ⟨duty, offers, messages, pool⟩ := accounted_beyond.cold State.reset
  exact ⟨duty, offers, messages, pool, closedLaw_beyond.cold State.reset, emergencyLaw_beyond.cold State.reset, queueLaw_beyond.cold State.reset,
    fareLaw_beyond.cold State.reset, settingsLaw_beyond.cold State.reset, fun _ => coldStart_agrees State.reset⟩

end Sys2Proof.Machine
end


section
/-! PROOFS. The step (R7, R96, R102, R135, R149, R157; log 2), the dropped or answered request (R165 to R167), and a single pulse (R1, R2, R22). -/

namespace Sys2Proof.Machine

open Sys2Proof

/-! ## What a step takes (log 1, log 2) -/

/-- An event's place in the list that an idle step looks through, by the list in which it stands. -/
theorem mem_dueEvents (c : Instr) (s : State) : c ∈ dueEvents s ↔
    c ∈ dueTransmission s ∨ c ∈ dueTimers s ∨ c ∈ dueOffers s ∨ c ∈ dueBeacon s ∨ c ∈ dueSlots s ∨ c ∈ dueLink s := by
  simp only [dueEvents, List.mem_append, or_assoc]

/-- The one event of a test. -/
theorem mem_if_singleton {p : Prop} [Decidable p] (c d : Instr) : c ∈ (if p then [d] else []) ↔ c = d ∧ p := by
  split <;> simp [*]

/-- The timers of the Duty Unit, the trip and the cancel window that have expired. -/
theorem mem_dueTimers (c : Instr) (s : State) : c ∈ dueTimers s ↔
    (c = .cancelWindowExpiry ∧ ∃ due, s.alarm.cancelDue = some due ∧ due ≤ s.now) ∨
    (c = .evaluation ∧ ∃ due, s.evalDue = some due ∧ due ≤ s.now) ∨
    (c = .resumeWindowExpiry ∧ ∃ due, s.resumeDue = some due ∧ due ≤ s.now) ∨
    (c = .statusIntervalExpiry ∧ ∃ due, s.duty.statusDue = some due ∧ due ≤ s.now) ∨
    (c = .presenceTimerExpiry ∧ ∃ due, s.duty.presenceDue = some due ∧ due ≤ s.now) := by
  simp only [dueTimers, List.mem_append, mem_if_singleton, dueNow_iff, or_assoc]

/-- The beacon's burst or cycle that has fallen due (R135). -/
theorem mem_dueBeacon (c : Instr) (s : State) : c ∈ dueBeacon s ↔
    (c = .beaconCycleStart ∧ s.alarm.record.state ≠ .normal ∧ (∃ n, s.alarm.record.position = some (n, .space)) ∧
      ∃ cycle, s.alarm.cycle = some cycle ∧ cycle.due ≤ s.now) ∨
    (c = .beaconBurst ∧ s.alarm.record.state ≠ .normal ∧ (∃ n, s.alarm.record.position = some (n, .mark)) ∧
      ∃ cycle, s.alarm.cycle = some cycle ∧ cycle.due ≤ s.now) := by
  simp only [dueBeacon, List.mem_append, mem_if_singleton, dueNow_iff, beaconDue_iff]
  rfl

/-- The link timer that has expired, once no slot transmission is in progress (R149). -/
theorem mem_dueLink (c : Instr) (s : State) : c ∈ dueLink s ↔
    c = .linkLost ∧ slotTransmission s = false ∧ ∃ due, s.radio.linkDue = some due ∧ due ≤ s.now := by
  simp only [dueLink, mem_if_singleton, Bool.and_eq_true, Bool.not_eq_true', dueNow_iff]
  rw [and_comm (a := ∃ due, _)]

/-- An up part with nothing handed on and events due takes the first of them. -/
theorem step_of_due {s : State} {c : Instr} {others : List Instr} (empty : s.pending = []) (up : s.power = .up) (idle : s.handed = [])
    (due : dueEvents s = c :: others) : step s = exec c s := by
  simp [step, empty, ownEvent, up, idle, due]

/-- Settles O1: the lists in which an idle step looks, one command at a time. -/
theorem stepTakesTheFrontCommand : Obligations.StepTakesTheFrontCommand := by
  refine ⟨fun c rest s h => by simp [step, h], fun s empty down => ?_, fun s empty up idle => ⟨fun c others due => ?_, fun rest => ?_⟩, fun c s => ?_⟩
  · simp [step, empty, ownEvent, down, passTime]
  · exact step_of_due empty up idle due
  · simp [step, empty, ownEvent, up, idle, rest, passTime]
  · rw [mem_dueEvents, mem_dueTransmission, mem_dueTimers, mem_dueOffers, mem_dueBeacon, mem_dueSlots, mem_dueLink]
    cases c <;> simp [eq_comm (b := Offer.number _)]

/-! ## A request, dropped or answered (R165 to R167) -/

/-- Every command request is taken or dropped by the one rule of R166, with its owner's reply. -/
theorem exec_of_requestPort {c : Instr} {p : Port} (h : requestPort c = some p) :
    ∃ owner, ∀ s, exec c s = whenUp (request p c owner) s := by
  cases c
  all_goals first
    | (cases h; done)
    | (cases h; exact ⟨_, fun _ => rfl⟩)

/-- A port's own state after it is set. -/
theorem portState_setBuffer (p : Port) (b : ReplyBuffer) (s : State) : (portState p (setBuffer p b s)).buffer = b := by cases p <;> rfl

/-- The check value of the Retained Domain is no part of a port. -/
theorem portState_sealDomain (p : Port) (s : State) : portState p (sealDomain s) = portState p s := by cases p <;> rfl

/-- Settles O5: by the rule that all command requests share. -/
theorem requestsAreDroppedOrAnswered : Obligations.RequestsAreDroppedOrAnswered := by
  intro c p s up port
  obtain ⟨owner, exec_eq⟩ := exec_of_requestPort port
  refine ⟨fun dropped => ?_, fun taken => ?_⟩
  · rw [exec_eq, whenUp_up up, request_dropped dropped]
    rfl
  · refine ⟨_, (owner (arrived p c s)).2.1, (owner (arrived p c s)).2.2, exec_of_takes ⟨up, taken⟩ rfl (exec_eq s), ?_⟩
    rw [replied, portState_sealDomain, portState_setBuffer]

/-! ## One pulse (R1, R2, R22) -/

/-- Where the metres of a pulse go: into the totals always, into the distance of a RUNNING trip with an active image, and nowhere besides while
the fare is held. -/
theorem takePulse_eq (s : State) : takePulse s = { s with
    dist := {
      remainder := (s.dist.remainder + 1000) % s.settings.k
      metres :=
        if tripRunning s ∧ s.tariff.active.isSome then min (s.dist.metres + (s.dist.remainder + 1000) / s.settings.k) 65535
        else if tripRunning s ∧ (s.dist.remainder + 1000) / s.settings.k ≠ 0 then 0 else s.dist.metres }
    totals := { s.totals with
      distance := min (s.totals.distance + (s.dist.remainder + 1000) / s.settings.k) 999999999
      hired := if tripRunning s then min (s.totals.hired + (s.dist.remainder + 1000) / s.settings.k) 999999999 else s.totals.hired } } := by
  unfold takePulse
  generalize (s.dist.remainder + 1000) / s.settings.k = m
  have running : ∀ d : Distance, tripRunning { s with dist := d } = tripRunning s := fun _ => rfl
  have held : ∀ d : Distance, fareHeld { s with dist := d } = fareHeld s := fun _ => rfl
  simp only [countMetres, running, held, satAdd, Config.countMax, Config.metresMax]
  cases trip : tripRunning s
  · simp
  · have some_trip : s.trip.isSome = true := by
      cases none_trip : s.trip with
      | none => rw [tripRunning_none s none_trip] at trip; cases trip
      | some t => rfl
    cases active : s.tariff.active <;> simp [fareHeld, some_trip, active]

/-- Settles O16: by where the metres of a pulse go. -/
theorem pulseCountsMetres : Obligations.PulseCountsMetres := by
  intro s up
  refine ⟨fun unset => ?_, ?_⟩
  · rw [exec_distPulse_up up, if_pos unset]
  · rintro set m rfl
    rw [exec_distPulse_up up, if_neg set, takePulse_eq]

end Sys2Proof.Machine
end

section
/-! PROOFS. The Fare Engine (01): the loop of R12 and its closed form, one evaluation (R7 to R15), and the band lookup (R35). -/

namespace Sys2Proof.Machine

open Sys2Proof

/-! ## The loop of R12 -/

/-- Below a step's units the rest charges nothing. -/
theorem Trip.chargeRest_of_lt {b : Band} {t : Trip} (whole : t.remaining = b.units) (below : t.progress < b.units) : t.chargeRest b = t := by
  unfold Trip.chargeRest Trip.charge
  rw [Nat.div_eq_of_lt below, Nat.mod_eq_of_lt below, ← whole]
  rfl

/-- From a step's units on, the rest is one step and the rest of the units left. -/
theorem Trip.chargeRest_of_le {b : Band} {t : Trip} (positive : 0 < b.units) (reached : b.units ≤ t.progress) :
    t.chargeRest b = Trip.chargeRest b { t.charge 1 b.a with progress := t.progress - b.units, remaining := b.units } := by
  have steps : t.progress / b.units = (t.progress - b.units) / b.units + 1 := by
    rw [← Nat.add_div_right _ positive, Nat.sub_add_cancel reached]
  have left : t.progress % b.units = (t.progress - b.units) % b.units := by
    rw [Nat.mod_eq_sub_mod reached]
  unfold Trip.chargeRest
  simp only [left, steps]
  rw [← Trip.charge_succ]
  unfold Trip.charge
  split <;> rfl

/-- Without a pending band and with a whole step to come, the loop charges what its units reach under the band in force (R12). -/
theorem stepLoop_whole {img : Image} (inRange : img.inRange = true) (fuel : Nat) : ∀ t : Trip, t.pendingBand = none →
    t.remaining = (img.band t.band).units → t.progress / (img.band t.band).units ≤ fuel →
    stepLoop img fuel t = t.chargeRest (img.band t.band) := by
  have positive := Image.band_units_pos inRange
  induction fuel with
  | zero =>
    intro t _ whole enough
    have below : t.progress < (img.band t.band).units := by
      rcases (Nat.div_eq_zero_iff.1 (Nat.le_zero.1 enough)) with zero | below
      · exact absurd zero (positive t.band).ne'
      · exact below
    rw [Trip.chargeRest_of_lt whole below]
    rfl
  | succ fuel ih =>
    intro t settled whole enough
    unfold stepLoop
    split
    · next below => rw [Trip.chargeRest_of_lt whole (whole ▸ below)]
    · next reached =>
      rw [whole, Nat.not_lt] at reached
      have one_less : (t.progress - (img.band t.band).units) / (img.band t.band).units ≤ fuel := by
        have steps := Nat.add_div_right (t.progress - (img.band t.band).units) (positive t.band)
        rw [Nat.sub_add_cancel reached] at steps
        omega
      have turn : t.loopStep img =
          { t.charge 1 (img.band t.band).a with
            progress := t.progress - (img.band t.band).units, remaining := (img.band t.band).units } := by
        simp only [Trip.loopStep, settled, whole]
      rw [turn, Trip.chargeRest_of_le (positive t.band) reached]
      exact ih _ settled rfl one_less

/-- A change of band rescales the units left: they reach no more steps than before it (R13). -/
theorem rescaled_steps_le (left old new : Nat) (positive : 0 < new) : left * new / old / new ≤ left := by
  rw [Nat.div_div_eq_div_mul, Nat.mul_div_mul_right _ _ positive]
  exact Nat.div_le_self _ _

/-- Settles O18: the first turn by cases of the pending band, the others by induction on the fuel. -/
theorem stepLoopHasItsClosedForm : Obligations.StepLoopHasItsClosedForm := by
  intro img t fuel inRange to_come enough
  have positive := Image.band_units_pos inRange
  cases fuel with
  | zero =>
    have below : t.progress < t.remaining := by omega
    simp [stepLoop, Trip.chargeSteps, below]
  | succ fuel =>
    unfold stepLoop Trip.chargeSteps
    split
    · rfl
    · have left : t.progress - t.remaining ≤ fuel := by omega
      cases pending : t.pendingBand with
      | none =>
        have turn : t.loopStep img = t.chargeFirst img := by simp only [Trip.loopStep, pending]; rfl
        rw [turn]
        exact stepLoop_whole inRange fuel _ pending rfl ((Nat.div_le_self _ _).trans left)
      | some n =>
        have turn : t.loopStep img = (t.chargeFirst img).changeBand img n := by simp only [Trip.loopStep, pending]; rfl
        rw [turn]
        exact stepLoop_whole inRange fuel _ rfl rfl ((rescaled_steps_le _ _ _ (positive n)).trans left)

/-! ## One evaluation (R7 to R15, R35) -/

/-- No notice placed. -/
theorem notices_or_zero (notices : Byte) : notices ||| 0 = notices := BitVec.or_zero

/-- The mark and the entry of a lookup under a clock that is unset (R35). -/
theorem lookupMark_entry (active : Bool) (s : State) : lookupMark active s = { s with
    faults := logFault (!s.tariff.clock.isSet && !s.tariff.clockUnsetMark) .clockNotSet s.tariff.clock active s.faults
    meter := { s.meter with notices := s.meter.notices ||| (if !s.tariff.clock.isSet && !s.tariff.clockUnsetMark then 0x20 else 0) }
    tariff := { s.tariff with clockUnsetMark := s.tariff.clockUnsetMark || !s.tariff.clock.isSet } } := by
  unfold lookupMark
  split
  · next first => simp [placeFault_eq, first]
  · next later =>
    cases set : s.tariff.clock.isSet
    · cases marked : s.tariff.clockUnsetMark
      · exact absurd ⟨set, marked⟩ later
      · have no_change : s.tariff = { s.tariff with clockUnsetMark := true } := by rw [← marked]
        simp only [Bool.not_true, Bool.and_false, Bool.false_eq_true, if_false, logFault, notices_or_zero, Bool.true_or, ← no_change]
    · simp [logFault]

/-- The entry of the first clamp of a trip (R9). -/
theorem speedFaultEntry_entry (metres : Nat) (t : Trip) (s : State) : speedFaultEntry metres t s = { s with
    faults := logFault (decide (200 < metres) && !t.speedFault) .speedImplausible s.tariff.clock true s.faults
    meter := { s.meter with notices := s.meter.notices ||| (if decide (200 < metres) && !t.speedFault then 0x20 else 0) } } := by
  unfold speedFaultEntry
  simp only [Config.clampMetres]
  split
  · next first => simp [placeFault_eq, first]
  · next other =>
    have no_entry : (decide (200 < metres) && !t.speedFault) = false := by simpa using other
    simp [no_entry, logFault]

/-- The notices of the steps that an evaluation charges (R13, R15). -/
theorem chargeNotices_placed (t : Trip) (s : State) : chargeNotices t s = { s with
    meter := { s.meter with
      notices := s.meter.notices ||| (if t.remaining ≤ t.progress then (if t.pendingBand.isSome then 0x03 else 0x01) else 0) }
    terminal := { s.terminal with notices := s.terminal.notices ||| (if t.remaining ≤ t.progress then 0x40 else 0) } } := by
  unfold chargeNotices
  by_cases below : t.progress < t.remaining
  · simp only [below, if_true, Nat.not_le.2 below, if_false, notices_or_zero]
  · simp only [below, if_false, Nat.not_lt.1 below, if_true]
    cases t.pendingBand <;> rfl

/-- The band pending after the lookup of an AUTO trip, or of a FIXED one (R8). -/
theorem lookedUp_eq (img : Image) (c : ClockReading) (t : Trip) : lookedUp img c t = { t with
    pendingBand := if t.mode = .auto then (if bandLookup img c = t.band then none else some (bandLookup img c)) else t.pendingBand } := by
  unfold lookedUp
  cases mode : t.mode
  · rfl
  · simp only [reduceCtorEq, if_false]
    rw [← mode]

/-- The lookup that a trip of a band mode makes, which a FIXED one does not (R8). -/
theorem lookupMark_of_mode (m : BandMode) (active : Bool) (s : State) : (if m = .auto then lookupMark active s else s) = { s with
    faults := logFault (decide (m = .auto) && !s.tariff.clock.isSet && !s.tariff.clockUnsetMark) .clockNotSet s.tariff.clock active s.faults
    meter := { s.meter with
      notices := s.meter.notices ||| (if decide (m = .auto) && !s.tariff.clock.isSet && !s.tariff.clockUnsetMark then 0x20 else 0) }
    tariff := { s.tariff with clockUnsetMark := s.tariff.clockUnsetMark || (decide (m = .auto) && !s.tariff.clock.isSet) } } := by
  cases m
  · exact lookupMark_entry active s
  · simp only [reduceCtorEq, if_false, decide_false, Bool.false_and, logFault, Bool.or_false, Bool.false_eq_true, notices_or_zero]

/-- The notice FAULT of two entries, one of them or none. -/
theorem two_fault_notices (notices : Byte) (first second : Bool) :
    (notices ||| (if first then 0x20 else 0)) ||| (if second then 0x20 else 0) = notices ||| (if first || second then 0x20 else 0) := by
  rw [BitVec.or_assoc]
  cases first <;> cases second <;> rfl

/-- An evaluation, with its fault entries and notices (R8 to R15, R35). -/
theorem evaluate_placed (img : Image) (t added : Trip) (s : State) (h : added = (lookedUp img s.tariff.clock t).addSecond img s.dist.metres)
    (unset fast : Bool) (hu : unset = (decide (t.mode = .auto) && !s.tariff.clock.isSet && !s.tariff.clockUnsetMark))
    (hf : fast = (decide (200 < s.dist.metres) && !t.speedFault)) :
    evaluate img t s = { s with
      trip := some (added.chargeSteps img)
      dist := { s.dist with metres := 0 }
      tariff := { s.tariff with clockUnsetMark := s.tariff.clockUnsetMark || (decide (t.mode = .auto) && !s.tariff.clock.isSet) }
      faults := logFault fast .speedImplausible s.tariff.clock true (logFault unset .clockNotSet s.tariff.clock true s.faults)
      meter := { s.meter with notices := s.meter.notices ||| (if unset || fast then 0x20 else 0) |||
        (if added.remaining ≤ added.progress then (if added.pendingBand.isSome then 0x03 else 0x01) else 0) }
      terminal := { s.terminal with notices := s.terminal.notices ||| (if added.remaining ≤ added.progress then 0x40 else 0) } } := by
  subst h hu hf
  rw [← two_fault_notices]
  simp only [evaluate, lookupMark_of_mode, speedFaultEntry_entry, chargeNotices_placed]

/-- Settles O19: by the exact next state of an evaluation, and the closed form of its loop. -/
theorem evaluationChargesTheSecond : Obligations.EvaluationChargesTheSecond := by
  rintro s t i due d units b pendingBand unset fast up timer trip running active inRange to_come rfl rfl hunits rfl rfl rfl
  have evaluated : exec .evaluation s = .next (sealDomain (evaluate i.image t { reach due s with evalDue := some (due + 1000) })) := by
    simp only [exec, execEvaluation, whenUp_up up, takeEvaluation, timer, trip, active, running, if_true]
  have added : ∃ added : Trip, added = (lookedUp i.image s.tariff.clock t).addSecond i.image s.dist.metres := ⟨_, rfl⟩
  obtain ⟨added, hadded⟩ := added
  have second : secondUnits (i.image.band t.band) (min s.dist.metres 200) = units := by
    rw [hunits]
    rfl
  have waits : waitingSecond (i.image.band t.band) (min s.dist.metres 200) = true ↔
      (i.image.band t.band).mode = .double ∨ min s.dist.metres 200 * (i.image.band t.band).tstep < 10 * (i.image.band t.band).dstep := by
    unfold waitingSecond
    cases (i.image.band t.band).mode
    · simp only [reduceCtorEq, false_or, decide_eq_true_eq]
      rfl
    · simp
  have as_said := hadded
  simp only [lookedUp_eq, Trip.addSecond, Trip.addMetres, Config.clampMetres, Config.countMax, second, waits, satAdd] at as_said
  have placed := evaluate_placed i.image t added { reach due s with evalDue := some (due + 1000) } hadded _ _ rfl rfl
  rw [evaluated, placed]
  refine ⟨_, rfl, ?_, rfl, rfl, rfl, rfl, ?_, rfl, ?_, ?_⟩
  · refine changesOnly_trans ?_ (changesOnly_mono (sealDomain_frame _) (by simp))
    intro f other
    cases f <;> first | rfl | exact absurd other (by decide)
  · rw [as_said]
    exact congrArg some (stepLoopHasItsClosedForm _ _ _ inRange (by exact to_come) (by exact le_rfl)).symm
  · rw [as_said]
    rfl
  · rw [as_said]
    rfl

/-! ## The band lookup (R35) -/

/-- What the lookup takes of a schedule: nothing where no entry qualifies, else one that qualifies, with none that starts later and none after it
that starts with it. -/
def Latest (day minute : Nat) (schedule : List ScheduleEntry) : Option ScheduleEntry → Prop
  | none => ∀ e ∈ schedule, e.qualifies day minute = false
  | some e => ∃ before after, schedule = before ++ e :: after ∧ e.qualifies day minute = true ∧
      (∀ y ∈ before, y.qualifies day minute = true → y.start ≤ e.start) ∧ ∀ y ∈ after, y.qualifies day minute = true → y.start < e.start

/-- One entry more at the schedule's end. -/
theorem latestEntry_append (day minute : Nat) (es : List ScheduleEntry) (e : ScheduleEntry) : latestEntry day minute (es ++ [e]) =
    if e.qualifies day minute then
      (match latestEntry day minute es with
        | none => some e
        | some b => if b.start ≤ e.start then some e else some b)
    else latestEntry day minute es :=
  List.foldl_append

/-- The lookup takes the latest qualifying entry, and of two with one start the later. -/
theorem latestEntry_latest (day minute : Nat) (es : List ScheduleEntry) : Latest day minute es (latestEntry day minute es) := by
  induction es using List.reverseRecOn with
  | nil => simp [latestEntry, Latest]
  | append_singleton es e ih =>
    rw [latestEntry_append]
    by_cases fits : e.qualifies day minute = true
    · rw [if_pos fits]
      cases best : latestEntry day minute es with
      | none =>
        rw [best] at ih
        exact ⟨es, [], rfl, fits, fun y hy hq => by simp [ih y hy] at hq, by simp⟩
      | some b =>
        rw [best] at ih
        obtain ⟨before, after, rfl, hb, earlier, later⟩ := ih
        by_cases le : b.start ≤ e.start
        · simp only [le, if_true]
          refine ⟨before ++ b :: after, [], rfl, fits, fun y hy hq => ?_, by simp⟩
          rcases List.mem_append.1 hy with hy | hy
          · exact (earlier y hy hq).trans le
          · rcases List.mem_cons.1 hy with rfl | hy
            · exact le
            · exact ((later y hy hq).le).trans le
        · simp only [le, if_false]
          refine ⟨before, after ++ [e], by simp, hb, earlier, fun y hy hq => ?_⟩
          rcases List.mem_append.1 hy with hy | hy
          · exact later y hy hq
          · rw [List.mem_singleton.1 hy]
            omega
    · rw [if_neg fits]
      cases best : latestEntry day minute es with
      | none =>
        rw [best] at ih
        intro y hy
        rcases List.mem_append.1 hy with hy | hy
        · exact ih y hy
        · rw [List.mem_singleton.1 hy]
          simpa using fits
      | some b =>
        rw [best] at ih
        obtain ⟨before, after, rfl, hb, earlier, later⟩ := ih
        refine ⟨before, after ++ [e], by simp, hb, earlier, fun y hy hq => ?_⟩
        rcases List.mem_append.1 hy with hy | hy
        · exact later y hy hq
        · rw [List.mem_singleton.1 hy] at hq
          exact absurd hq fits

/-- Settles O20: by what the lookup takes of a schedule. -/
theorem lookupTakesTheLatestEntry : Obligations.LookupTakesTheLatestEntry := by
  intro img c
  have latest := latestEntry_latest c.day c.minuteOfDay img.schedule
  refine ⟨fun unset => by simp [bandLookup, unset], fun nothing => ?_, fun set x hx hq => ?_⟩
  · cases best : latestEntry c.day c.minuteOfDay img.schedule with
    | none => simp [bandLookup, best]
    | some e =>
      rw [best] at latest
      obtain ⟨before, after, split, fits, -⟩ := latest
      have none_fits := nothing e (by simp [split])
      exact absurd fits (by simp [none_fits])
  · cases best : latestEntry c.day c.minuteOfDay img.schedule with
    | none =>
      rw [best] at latest
      exact absurd hq (by simp [latest x hx])
    | some e =>
      rw [best] at latest
      obtain ⟨before, after, split, fits, earlier, later⟩ := latest
      exact ⟨before, e, after, split, fits, by simp [bandLookup, set, best], earlier, later⟩

end Sys2Proof.Machine
end


section
/-! PROOFS. What the owners' acts leave in the Uplink Queue (R154, R155), and what a change of the Duty Unit tells of itself (R62, R73, R78,
R94). -/

namespace Sys2Proof.Machine

open Sys2Proof

/-! ## What a row of acts leaves in the queue -/

/-- A change that leaves every kind as it was leaves the count of the general positions. -/
theorem generalCount_map {q : List Entry} (f : Entry → Entry) (same : ∀ e ∈ q, (f e).kind = e.kind) :
    (q.map f).countP (fun e => !reservedKind e.kind) = q.countP (fun e => !reservedKind e.kind) := by
  rw [List.countP_map]
  exact List.countP_congr fun e he => by simp [same e he]

/-- A change of some entries' contents, each to one of its own kind. -/
theorem refreshed_kind (c : Content) (p : Entry → Prop) [DecidablePred p] (same : ∀ e, p e → contentKind c = e.kind) (e : Entry) :
    (if p e then e.refresh c else e).kind = e.kind := by
  split
  · exact (Entry.refresh_kind c e (same e ‹_›)).1
  · rfl

theorem Entry.isReceiptOf_kind {n : Nat} {e : Entry} (h : e.isReceiptOf n = true) : e.kind = .receipt := by
  unfold Entry.isReceiptOf at h
  split at h
  · next content => simp [Entry.kind, content, contentKind]
  · cases h

/-- No act gives a general position up. -/
theorem OwnerAct.generalCount_le {r r' : Radio} (act : OwnerAct r r') : r.generalCount ≤ r'.generalCount := by
  have created : ∀ (r : Radio) (c : Content), r.generalCount ≤ (r.create c).generalCount := fun r c => by
    simp only [Radio.generalCount, Radio.create, List.countP_append]
    omega
  cases act with
  | general c => exact created r c
  | reserved c =>
    unfold Radio.createReserved
    split
    · exact (generalCount_map _ fun e _ => by split <;> rfl).ge
    · exact created r c
  | refresh c =>
    unfold Radio.refreshReserved
    split
    · exact (generalCount_map _ fun e _ => refreshed_kind c (fun e => e.kind = contentKind c) (fun _ h => h.symm) e).ge
    · exact created r c
  | remove k _ kind =>
    simp only [Radio.generalCount, Radio.removeOwned, List.countP_filterMap]
    refine List.countP_mono_left fun e _ general => ?_
    have other : e.kind ≠ k := by
      rintro rfl
      simp [kind] at general
    simpa [other] using general
  | receipt n st =>
    unfold Radio.queueReceipt
    split
    · refine (generalCount_map _ fun e _ => ?_).ge
      exact refreshed_kind (.receipt n st) (fun e => e.isReceiptOf n ∧ e.content ≠ .receipt n st)
        (fun _ h => (Entry.isReceiptOf_kind h.1).symm) e
    · unfold Radio.createGeneral
      split
      · exact created r _
      · exact le_rfl
  | position => exact le_rfl

/-- Every act leaves an entry of a general position in the queue with the content it has, but for a RECEIPT, which a later one replaces. -/
theorem OwnerAct.content_stays {r r' : Radio} (act : OwnerAct r r') {c : Content} (general : reservedKind (contentKind c) = false)
    (other : contentKind c ≠ .receipt) (h : ∃ e ∈ r.queue, e.content = c) : ∃ e ∈ r'.queue, e.content = c := by
  obtain ⟨e, he, content⟩ := h
  have own : e.kind = contentKind c := congrArg contentKind content
  have created : ∀ d, ∃ e ∈ (r.create d).queue, e.content = c := fun d => ⟨e, List.mem_append_left _ he, content⟩
  have apart : ∀ k, reservedKind k = true → e.kind ≠ k := by
    rintro k reserved rfl
    rw [own, general] at reserved
    cases reserved
  cases act with
  | general d => exact created d
  | reserved d _ kind =>
    unfold Radio.createReserved
    split
    · exact ⟨_, List.mem_map.2 ⟨e, he, rfl⟩, by rw [if_neg fun h => apart _ kind h.1]; exact content⟩
    · exact created d
  | refresh d _ kind =>
    unfold Radio.refreshReserved
    split
    · exact ⟨_, List.mem_map.2 ⟨e, he, rfl⟩, by rw [if_neg (apart _ kind)]; exact content⟩
    · exact created d
  | remove k _ kind => exact ⟨e, List.mem_filterMap.2 ⟨e, he, by rw [if_neg (apart _ kind)]⟩, content⟩
  | receipt n st =>
    unfold Radio.queueReceipt
    split
    · exact ⟨_, List.mem_map.2 ⟨e, he, rfl⟩, by rw [if_neg fun h => other (own ▸ Entry.isReceiptOf_kind h.1)]; exact content⟩
    · unfold Radio.createGeneral
      split
      · exact created _
      · exact ⟨e, he, content⟩
  | position => exact ⟨e, he, content⟩

theorem OwnerActs.generalCount_le {r r' : Radio} (acts : OwnerActs r r') : r.generalCount ≤ r'.generalCount :=
  acts.keeps (P := fun x => r.generalCount ≤ x.generalCount) (fun _ _ act h => h.trans act.generalCount_le) le_rfl

/-- A DECLINE held stays held. -/
theorem OwnerActs.hasDecline {r r' : Radio} (acts : OwnerActs r r') {n : Nat} (h : r.hasDecline n = true) : r'.hasDecline n = true := by
  refine acts.keeps (P := fun x => x.hasDecline n = true) (fun _ _ act held => ?_) h
  obtain ⟨e, he, reason, content⟩ := (Radio.hasDecline_iff _ _).1 held
  obtain ⟨x, hx, same⟩ := act.content_stays (c := .decline n reason) rfl (by simp [contentKind]) ⟨e, he, content⟩
  exact (Radio.hasDecline_iff _ _).2 ⟨x, hx, reason, same⟩

/-- A RELEASE held stays held. -/
theorem OwnerActs.hasRelease {r r' : Radio} (acts : OwnerActs r r') {n : Nat} (h : r.hasRelease n = true) : r'.hasRelease n = true := by
  refine acts.keeps (P := fun x => x.hasRelease n = true) (fun _ _ act held => ?_) h
  obtain ⟨e, he, time, content⟩ := (Radio.hasRelease_iff _ _).1 held
  obtain ⟨x, hx, same⟩ := act.content_stays (c := .jobEvent .release n time) rfl (by simp [contentKind]) ⟨e, he, content⟩
  exact (Radio.hasRelease_iff _ _).2 ⟨x, hx, time, same⟩

/-- A refresh or a creation leaves held what was held. -/
theorem Radio.refreshReserved_holds_kept (c : Content) {k : Kind} {r : Radio} (h : r.holds k = true) : (r.refreshReserved c).holds k = true := by
  simp only [Radio.holds, List.any_eq_true, decide_eq_true_eq] at h
  obtain ⟨e, he, kind⟩ := h
  simp only [Radio.holds, List.any_eq_true, decide_eq_true_eq]
  unfold Radio.refreshReserved
  split
  · exact ⟨_, List.mem_map.2 ⟨e, he, rfl⟩, (refreshed_kind c (fun e => e.kind = contentKind c) (fun _ h => h.symm) e).trans kind⟩
  · exact ⟨e, List.mem_append_left _ he, kind⟩

/-- A creation of a reserved kind leaves its kind held, whether its position was free, taken or about to be left (R154). -/
theorem Radio.createReserved_holds (c : Content) (r : Radio) : (r.createReserved c).holds (contentKind c) = true := by
  unfold Radio.createReserved
  split
  · next held =>
    simp only [Radio.holds, List.any_eq_true, decide_eq_true_eq] at held ⊢
    obtain ⟨e, he, kind⟩ := held
    exact ⟨_, List.mem_map.2 ⟨e, he, rfl⟩, by rw [← kind]; split <;> rfl⟩
  · simp only [Radio.holds, List.any_eq_true, decide_eq_true_eq]
    exact ⟨_, List.mem_append_right _ (List.mem_cons_self ..), rfl⟩

/-! ## A change of the Duty Unit (R62, R73, R78, R94) -/

/-- An offer as the re-check leaves it: an OFFERED one that the cab no longer fits is DECLINED (R94). -/
def Offer.rechecked (s : State) (o : Offer) : Offer :=
  match o.state with
  | .offered _ => (match filterReason s o.stackable with
    | some r => { o with state := .declined r }
    | none => o)
  | _ => o

/-- The re-check declines the offer. -/
def Offer.unfit (s : State) (o : Offer) : Bool := o.deadlineDue.isSome && (filterReason s o.stackable).isSome

theorem recheckReason_isSome (s : State) (o : Offer) : (recheckReason s o).isSome = o.unfit s := by
  unfold recheckReason Offer.unfit Offer.deadlineDue
  rw [entryReason_eq_filterReason]
  cases o.state <;> simp

/-- The entries after a re-check. -/
theorem recheck_entries (s : State) : (recheck s).offers.entries = s.offers.entries.map (Offer.rechecked s) := by
  refine List.map_congr_left fun o _ => ?_
  unfold recheckReason Offer.rechecked
  rw [entryReason_eq_filterReason]
  cases o.state <;> rfl

/-- What decides whether an offer fits. -/
theorem filterReason_congr {s t : State} (on : t.duty.signedOn = s.duty.signedOn) (state : t.alarm.record.state = s.alarm.record.state)
    (presence : t.duty.presence = s.duty.presence) (duty : t.duty.state = s.duty.state) (next : t.duty.next = s.duty.next) (stackable : Bool) :
    filterReason t stackable = filterReason s stackable := by
  unfold filterReason inEmergency
  rw [on, state, presence, duty, next]

theorem Offer.rechecked_congr {s t : State} (same : ∀ stackable, filterReason t stackable = filterReason s stackable) :
    Offer.rechecked t = Offer.rechecked s := by
  funext o
  simp only [Offer.rechecked, same]

theorem Offer.unfit_congr {s t : State} (same : ∀ stackable, filterReason t stackable = filterReason s stackable) :
    Offer.unfit t = Offer.unfit s := by
  funext o
  simp only [Offer.unfit, same]

/-- The notices of a change of the Duty Unit: DUTY, and OFFER when an offer is declined. -/
theorem dutyChanged_terminal (reason : StatusReason) (s : State) : (dutyChanged reason s).terminal = { s.terminal with
    notices := s.terminal.notices ||| 0x10 ||| (if s.offers.entries.any (Offer.unfit s) then 0x01 else 0) } := by
  have unfit : ∀ o, (recheckReason (refreshStatus reason (noticeTerminal noticeDuty s)) o).isSome = o.unfit s := recheckReason_isSome s
  simp only [dutyChanged, recheck, unfit]
  change (if s.offers.entries.any (Offer.unfit s) then _ else _) = _
  split
  · rfl
  · rw [notices_or_zero]
    rfl

/-- The entries after a change of the Duty Unit. -/
theorem dutyChanged_offers (reason : StatusReason) (s : State) :
    (dutyChanged reason s).offers = { s.offers with entries := s.offers.entries.map (Offer.rechecked s) } := by
  have entries := recheck_entries (refreshStatus reason (noticeTerminal noticeDuty s))
  have other : (dutyChanged reason s).offers = { s.offers with entries := (dutyChanged reason s).offers.entries } := rfl
  rw [other]
  exact congrArg (fun entries => { s.offers with entries := entries }) entries

/-- The Radio Link after a change of the Duty Unit, as the declines of the re-check leave it. -/
theorem dutyChanged_radio (reason : StatusReason) (s : State) : (dutyChanged reason s).radio =
    s.offers.entries.foldl (fun r o => match recheckReason s o with
      | some why => r.queueDecline o.number why
      | none => r) (s.radio.refreshReserved (.status reason)) := rfl

/-- A DECLINE is queued for each offer that the re-check declines, as far as the general positions go (R94, R99). -/
theorem dutyChanged_declines (reason : StatusReason) (s : State) {o : Offer} (ho : o ∈ s.offers.entries) (unfit : o.unfit s = true) :
    (dutyChanged reason s).radio.hasDecline o.number = true ∨ 8 ≤ (dutyChanged reason s).radio.generalCount := by
  obtain ⟨-, l, -, -, -, -, declined⟩ := queueDeclines (recheckReason s) s.offers.entries _ _ (dutyChanged_radio reason s)
  exact declined o ho (by rwa [recheckReason_isSome])

/-- The Radio Link keeps all but its queue. -/
theorem dutyChanged_radio_rest (reason : StatusReason) (s : State) : (dutyChanged reason s).radio =
    { s.radio with queue := (dutyChanged reason s).radio.queue, nextArrival := (dutyChanged reason s).radio.nextArrival } := by
  obtain ⟨-, -, rest⟩ := recheck_grows (refreshStatus reason (noticeTerminal noticeDuty s))
  refine rest.trans ?_
  have refreshed : (refreshStatus reason (noticeTerminal noticeDuty s)).radio = s.radio.refreshReserved (.status reason) := rfl
  rw [refreshed, Radio.refreshReserved_rest]
  rfl

/-- What is held stays held. -/
theorem dutyChanged_holds_kept (reason : StatusReason) {k : Kind} {s : State} (h : s.radio.holds k = true) :
    (dutyChanged reason s).radio.holds k = true :=
  recheck_holds (Radio.refreshReserved_holds_kept (.status reason) h)

/-- The notice DUTY stands, whatever stands with it. -/
theorem duty_notice (before : Byte) (with_offer : Bool) : (before ||| 0x10 ||| (if with_offer then 0x01 else 0)) &&& 0x10 = 0x10 := by
  ext k hk
  cases with_offer <;> simp
  all_goals intro h; simp [h]

/-- Settles O35: by what the refresh of STATUS and the re-check do. -/
theorem dutyChangesAreReported : Obligations.DutyChangesAreReported := by
  rintro reason s v rfl
  refine ⟨dutyChanged_frame reason s, rfl, dutyChanged_offers reason s, ?_, ?_, fun k placed => ?_, dutyChanged_radio_rest reason s, ?_,
    fun o ho offered unfit => dutyChanged_declines reason s ho (by simp [Offer.unfit, offered, unfit])⟩
  · rw [dutyChanged_terminal]
  · rw [dutyChanged_terminal]
    exact duty_notice _ _
  · rw [dutyChanged_terminal]
    simp [placed]
  · obtain ⟨e, he, status⟩ := Radio.refreshStatus_entry reason s.radio
    obtain ⟨⟨l, queue, -⟩, -, -⟩ := recheck_grows (refreshStatus reason (noticeTerminal noticeDuty s))
    exact ⟨e, by rw [dutyChanged, queue]; exact List.mem_append_left _ he, status⟩

end Sys2Proof.Machine
end

section
/-! PROOFS. The trip commands (03): FLAG DOWN (R6, R39, R40, R63, R95), STOP (R16, R17, R22, R41) and CLEAR (R29, R44, R52, R60, R64). -/

namespace Sys2Proof.Machine

open Sys2Proof

/-! ## STOP (R16, R17, R41) -/

/-- A partial evaluation, with its fault entry and notices (R9, R15, R16). -/
theorem partialEvaluate_placed (img : Image) (t added : Trip) (s : State) (fast : Bool)
    (h : added = { t.addMetres s.dist.metres with
      progress := t.progress + min s.dist.metres 200 * (img.band t.band).tstep })
    (hf : fast = (decide (200 < s.dist.metres) && !t.speedFault)) :
    partialEvaluate img t s = { s with
      trip := some (added.chargeSteps img)
      dist := { s.dist with metres := 0 }
      faults := logFault fast .speedImplausible s.tariff.clock true s.faults
      meter := { s.meter with notices := s.meter.notices ||| (if fast then 0x20 else 0) |||
        (if added.remaining ≤ added.progress then (if added.pendingBand.isSome then 0x03 else 0x01) else 0) }
      terminal := { s.terminal with notices := s.terminal.notices ||| (if added.remaining ≤ added.progress then 0x40 else 0) } } := by
  subst h hf
  simp only [partialEvaluate, speedFaultEntry_entry, chargeNotices_placed]
  rfl

/-- The notice TRIP placed twice is placed once. -/
theorem trip_notice_twice (notices : Byte) (p : Prop) [Decidable p] : notices ||| (if p then 0x40 else 0) ||| 0x40 = notices ||| 0x40 := by
  rw [BitVec.or_assoc]
  split <;> rfl

/-- A RUNNING trip is stopped. -/
theorem stop_of_running {s : State} {t : Trip} (trip : s.trip = some t) (running : t.phase = .running) : stop s = done .ok (takeStop t s) := by
  simp [stop, trip, running]

/-- Without a RUNNING trip there is nothing to stop. -/
theorem stop_of_not_running {s : State} (h : tripRunning s = false) : stop s = done .refusedState s := by
  unfold stop
  cases trip : s.trip with
  | none => rfl
  | some t =>
    refine if_neg fun running => ?_
    rw [(tripRunning_some s trip).2 running] at h
    cases h

/-- Settles O26: a partial evaluation by its exact state, and the stopped total of what it leaves. -/
theorem stopFixesTheAmountDue : Obligations.StopFixesTheAmountDue := by
  intro s u takes hu
  have replies := exec_of_takes (owner := stop) takes hu rfl
  refine ⟨?_, fun t trip running unpriced => ?_, fun idle => ?_⟩
  · rintro t a i d total fast trip running active inRange to_come rfl rfl ha rfl
    rw [replies, stop_of_running trip running]
    have placed := partialEvaluate_placed i.image t _ u _ rfl rfl
    have charged : partialOf t u = partialEvaluate i.image t u := by simp only [partialOf, active]
    rw [placed] at charged
    have whole := stepLoopHasItsClosedForm i.image
      { t.addMetres u.dist.metres with progress := t.progress + min u.dist.metres 200 * (i.image.band t.band).tstep } _ inRange to_come le_rfl
    have same : a = Trip.chargeSteps i.image
        { t.addMetres u.dist.metres with progress := t.progress + min u.dist.metres 200 * (i.image.band t.band).tstep } := ha.trans whole
    refine ⟨_, rfl, ?_, ?_, ?_, ?_, ?_, ?_, ?_, ?_⟩
    · exact changesOnly_mono (takeStop_frame t u) (by decide)
    all_goals simp only [done, takeStop, charged, active, Option.map_some, PortState.place, noticeTrip, trip_notice_twice]
    · rw [← same]
      rfl
    · rfl
  · rw [replies, stop_of_running trip running]
    simp only [done, takeStop, partialOf, unpriced, trip, Option.map_some]
    rfl
  · rw [replies, stop_of_not_running idle]
    rfl

/-! ## CLEAR (R29, R44, R52, R60, R64) -/

/-- The trip closed and counted: the entry made of it is unreported, and so the FARE TOTAL is held (R52, R57). -/
theorem closeTrip_eq (t : Trip) (total : Nat) (s : State) : closeTrip t total s = { s with
    resumeDue := none
    closed := appendClosed (carriedIndex s) (closedEntry t total s) s.closed
    alarm := { s.alarm with record := { s.alarm.record with pinIntent := false } }
    totals := s.totals.addTrip total (tripExtras s.tariff.active t) t.steps
    radio := s.radio.createReserved .fareTotal } := by
  unfold closeTrip ensureFareTotal
  refine if_pos ?_
  simp [appendClosed, closedEntry]

/-- A notice placed under a condition. -/
theorem place_if (p : Prop) [Decidable p] (port : PortState) (kinds : Byte) :
    (if p then port.place kinds else port) = { port with notices := port.notices ||| (if p then kinds else 0) } := by
  split
  · rfl
  · rw [notices_or_zero]

/-- A pending image becomes active, with its notice (R29). -/
theorem activatePending_eq (s : State) : activatePending s = { s with
    tariff := { s.tariff with active := s.tariff.pending.or s.tariff.active, pending := none }
    meter := { s.meter with notices := s.meter.notices ||| (if s.tariff.pending.isSome then 0x04 else 0) } } := by
  unfold activatePending
  cases pending : s.tariff.pending with
  | none =>
    have same : s.tariff = { s.tariff with active := s.tariff.active, pending := none } := by rw [← pending]
    simp only [Option.none_or, ← same, Option.isSome_none, Bool.false_eq_true, if_false, notices_or_zero]
  | some i => rfl

/-- The Duty Unit after a CLEAR (R64). -/
theorem DutyUnit.afterClear_eq (d : DutyUnit) : d.afterClear = { d with
    state := if d.signedOn then (if d.next.isSome then .assigned else .vacant) else .offDuty
    current := if d.signedOn then d.next.or d.current else d.current
    next := if d.signedOn then none else d.next
    soonClear := none } := by
  unfold DutyUnit.afterClear
  cases on : d.signedOn with
  | false => simp [← on]
  | true =>
    cases next : d.next with
    | none =>
      simp only [if_true, Option.isSome_none, Bool.false_eq_true, if_false, Option.none_or]
    | some j =>
      simp only [if_true, Option.isSome_some, Option.some_or]

/-- The blocks that pass to the current job (R64, R84). -/
theorem movedBlocks_eq (d : DutyUnit) : movedBlocks d = if d.signedOn then (d.next.map (fun j => j.text.blocks)).getD [] else [] := by
  unfold movedBlocks
  cases d.signedOn <;> cases d.next <;> rfl

/-- The move of the Duty Unit at a CLEAR (R64, R78, R84). -/
theorem leaveHired_eq (s : State) : leaveHired s = { s with
    pool := retagBlocks .currentJob (if s.duty.signedOn then (s.duty.next.map (fun j => j.text.blocks)).getD [] else []) s.pool
    duty := { s.duty with
      state := if s.duty.signedOn then (if s.duty.next.isSome then .assigned else .vacant) else .offDuty
      current := if s.duty.signedOn then s.duty.next.or s.duty.current else s.duty.current
      next := if s.duty.signedOn then none else s.duty.next
      soonClear := none }
    terminal := { s.terminal with
      notices := s.terminal.notices ||| (if s.duty.signedOn && s.duty.next.isSome then 0x02 else 0) } } := by
  simp only [leaveHired, movedBlocks_eq, DutyUnit.afterClear_eq, place_if, noticeJob, Bool.and_eq_true]

/-- The state in which the move of the Duty Unit at a CLEAR is told of. -/
def clearedState (t : Trip) (total : Nat) (s : State) : State := { s with
  resumeDue := none
  closed := appendClosed (carriedIndex s) (closedEntry t total s) s.closed
  alarm := { s.alarm with record := { s.alarm.record with pinIntent := false } }
  totals := s.totals.addTrip total (tripExtras s.tariff.active t) t.steps
  radio := s.radio.createReserved .fareTotal
  tariff := { s.tariff with active := s.tariff.pending.or s.tariff.active, pending := none }
  meter := { s.meter with notices := s.meter.notices ||| (if s.tariff.pending.isSome then 0x04 else 0) }
  trip := none
  evalDue := none
  dist := { s.dist with metres := 0 }
  pool := retagBlocks .currentJob (if s.duty.signedOn then (s.duty.next.map (fun j => j.text.blocks)).getD [] else []) s.pool
  duty := { s.duty with
    state := if s.duty.signedOn then (if s.duty.next.isSome then .assigned else .vacant) else .offDuty
    current := if s.duty.signedOn then s.duty.next.or s.duty.current else s.duty.current
    next := if s.duty.signedOn then none else s.duty.next
    soonClear := none }
  terminal := { s.terminal with
    notices := s.terminal.notices ||| 0x40 ||| (if s.duty.signedOn && s.duty.next.isSome then 0x02 else 0) } }

/-- A CLEAR that is taken, up to the telling of it (R44). -/
theorem takeClear_eq (t : Trip) (total : Nat) (s : State) : takeClear t total s = dutyChanged .duty (clearedState t total s) := by
  unfold takeClear
  congr 1
  rw [closeTrip_eq, activatePending_eq, leaveHired_eq]
  rfl

/-- Only a STOPPED trip is cleared. -/
theorem clear_of_not_stopped {s : State} (h : tripStopped s = false) : clear s = done .refusedState s := by
  unfold clear
  split
  · rfl
  · next t trip =>
    split
    · rfl
    · next total uplift phase => exact absurd ((tripStopped_iff s).2 ⟨t, total, uplift, trip, phase⟩) (by simp [h])

/-- The notices of a CLEAR or a FLAG DOWN, in the order of their values. -/
theorem trip_and_duty_notices (notices a b : Byte) : notices ||| 0x40 ||| a ||| 0x10 ||| b = notices ||| 0x50 ||| a ||| b := by
  have two : (0x50 : Byte) = 0x40 ||| 0x10 := rfl
  rw [two]
  ac_rfl

/-- Settles O28: by the state in which the move of the Duty Unit is told of, and what that telling does. -/
theorem clearClosesTheTrip : Obligations.ClearClosesTheTrip := by
  intro s u takes hu
  have replies := exec_of_takes (owner := clear) takes hu rfl
  refine ⟨fun t total uplift trip stopped => ?_, fun idle => ?_⟩
  · have cleared : clear u = done .ok (takeClear t total u) := by simp [clear, trip, stopped]
    rw [replies, cleared]
    refine ⟨takeClear t total u, rfl, changesOnly_mono (takeClear_frame t total u) (by decide), ?_⟩
    rw [takeClear_eq]
    have fits : ∀ stackable, filterReason (clearedState t total u) stackable =
        filterReason { u with duty := (dutyChanged .duty (clearedState t total u)).duty } stackable :=
      filterReason_congr rfl rfl rfl rfl rfl
    refine ⟨rfl, rfl, rfl, rfl, rfl, rfl, rfl, rfl, rfl, dutyChanged_holds _ _,
      dutyChanged_holds_kept .duty (Radio.createReserved_holds .fareTotal u.radio), rfl, ?_, fun o ho offered unfit => ?_, rfl, ?_⟩
    · rw [dutyChanged_offers, Offer.rechecked_congr fits]
      rfl
    · exact dutyChanged_declines .duty (clearedState t total u) ho (by rw [Offer.unfit_congr fits]; exact Bool.and_eq_true_iff.2 ⟨offered, unfit⟩)
    · rw [dutyChanged_terminal, Offer.unfit_congr fits]
      exact congrArg (fun notices => { u.terminal with notices := notices }) (trip_and_duty_notices _ _ _)
  · rw [replies, clear_of_not_stopped idle]
    rfl

/-! ## FLAG DOWN (R6, R39, R40, R63, R95) -/

/-- A RELEASE is in the queue once it has been queued, unless the general positions are all taken (R104). -/
theorem Radio.queueRelease_held (n : Nat) (time : ClockReading) (r : Radio) :
    (r.queueRelease n time).hasRelease n = true ∨ 8 ≤ (r.queueRelease n time).generalCount := by
  unfold Radio.queueRelease
  split
  · exact .inl ‹_›
  · rw [Radio.createGeneral_eq]
    split
    · exact .inl ((Radio.hasRelease_iff _ _).2 ⟨_, List.mem_append_right _ (List.mem_cons_self ..), time, rfl⟩)
    · exact .inr (Nat.le_of_not_lt ‹_›)

/-- No ACCEPT entry is left but one that goes out to its end, removed and followed by none (R95, R101, R154). -/
def AcceptGone (r : Radio) : Prop := ∀ e ∈ r.queue, e.kind = .accept → e.state = .sending ∧ e.removed = true ∧ e.deferred = none

theorem Radio.removeOwned_acceptGone (r : Radio) : AcceptGone (r.removeOwned .accept) := by
  intro e he kind
  obtain ⟨x, -, stays⟩ := List.mem_filterMap.1 he
  split at stays
  · split at stays
    · obtain rfl := Option.some.inj stays
      exact ⟨‹_›, rfl, rfl⟩
    · cases stays
  · obtain rfl := Option.some.inj stays
    exact absurd kind ‹_›

theorem AcceptGone.create {r : Radio} (gone : AcceptGone r) (c : Content) (other : contentKind c ≠ .accept) : AcceptGone (r.create c) := by
  intro e he kind
  rcases List.mem_append.1 he with he | he
  · exact gone e he kind
  · rw [List.mem_singleton.1 he] at kind
    exact absurd kind other

theorem AcceptGone.createGeneral {r : Radio} (gone : AcceptGone r) (c : Content) (other : contentKind c ≠ .accept) :
    AcceptGone (r.createGeneral c) := by
  unfold Radio.createGeneral
  split
  · exact gone.create c other
  · exact gone

theorem AcceptGone.queueRelease {r : Radio} (gone : AcceptGone r) (n : Nat) (time : ClockReading) : AcceptGone (r.queueRelease n time) := by
  unfold Radio.queueRelease
  split
  · exact gone
  · exact gone.createGeneral _ (by simp [contentKind])

theorem AcceptGone.queueDecline {r : Radio} (gone : AcceptGone r) (n : Nat) (reason : DeclineReason) : AcceptGone (r.queueDecline n reason) := by
  unfold Radio.queueDecline
  split
  · exact gone
  · exact gone.createGeneral _ (by simp [contentKind])

theorem AcceptGone.refreshStatus {r : Radio} (gone : AcceptGone r) (reason : StatusReason) : AcceptGone (r.refreshReserved (.status reason)) := by
  unfold Radio.refreshReserved
  split
  · intro e he kind
    obtain ⟨x, hx, rfl⟩ := List.mem_map.1 he
    rw [refreshed_kind (.status reason) (fun e => e.kind = contentKind (.status reason)) (fun _ h => h.symm)] at kind
    have other : x.kind ≠ contentKind (.status reason) := by simp [kind, contentKind]
    rw [if_neg other]
    exact gone x hx kind
  · exact gone.create _ (by simp [contentKind])

theorem AcceptGone.dutyChanged {s : State} (gone : AcceptGone s.radio) (reason : StatusReason) : AcceptGone (dutyChanged reason s).radio := by
  rw [dutyChanged_radio]
  generalize hr : s.radio.refreshReserved (.status reason) = r
  replace gone : AcceptGone r := hr ▸ gone.refreshStatus reason
  clear hr
  induction s.offers.entries generalizing r with
  | nil => exact gone
  | cons o os ih =>
    refine ih _ ?_
    dsimp only
    split
    · exact gone.queueDecline _ _
    · exact gone

/-- The Radio Link as the abandoning of accepted offers leaves it (R95). -/
def abandonRadio (time : ClockReading) (os : List Offer) (r : Radio) : Radio :=
  os.foldl (fun r o => if o.accepted then (r.removeOwned .accept).queueRelease o.number time else r) r

theorem abandonRadio_acts (time : ClockReading) (os : List Offer) (r : Radio) : OwnerActs r (abandonRadio time os r) := by
  refine OwnerActs.foldl (fun r o => ?_) _ _
  split
  · exact (OwnerActs.one (.remove .accept _ rfl)).trans (OwnerActs.queueRelease _ _ _)
  · exact .refl

theorem abandonRadio_queue (time : ClockReading) (os : List Offer) (r : Radio) :
    ∃ queue next, abandonRadio time os r = { r with queue := queue, nextArrival := next } := by
  induction os generalizing r with
  | nil => exact ⟨_, _, rfl⟩
  | cons o os ih =>
    obtain ⟨queue, next, rest⟩ := ih (if o.accepted then (r.removeOwned .accept).queueRelease o.number time else r)
    refine ⟨queue, next, rest.trans ?_⟩
    split
    · rw [Radio.queueRelease_rest]
      rfl
    · rfl

/-- Once an offer is accepted, its ACCEPT is gone (R95, R101). -/
theorem abandonRadio_acceptGone (time : ClockReading) (os : List Offer) (r : Radio) (h : (∃ o ∈ os, o.accepted = true) ∨ AcceptGone r) :
    AcceptGone (abandonRadio time os r) := by
  induction os generalizing r with
  | nil => simpa [abandonRadio] using h
  | cons o os ih =>
    refine ih _ ?_
    dsimp only
    by_cases accepted : o.accepted = true
    · rw [if_pos accepted]
      exact .inr ((Radio.removeOwned_acceptGone r).queueRelease _ _)
    · rw [if_neg accepted]
      refine h.imp_left fun ⟨x, hx, hxa⟩ => ?_
      rcases List.mem_cons.1 hx with rfl | hx
      · exact absurd hxa accepted
      · exact ⟨x, hx, hxa⟩

/-- Each accepted offer's RELEASE is queued, as far as the general positions go (R95, R104). -/
theorem abandonRadio_releases (time : ClockReading) {o : Offer} (os : List Offer) (r : Radio) (ho : o ∈ os) (accepted : o.accepted = true) :
    (abandonRadio time os r).hasRelease o.number = true ∨ 8 ≤ (abandonRadio time os r).generalCount := by
  induction os generalizing r with
  | nil => cases ho
  | cons x os ih =>
    rcases List.mem_cons.1 ho with rfl | ho
    · have rest := abandonRadio_acts time os ((r.removeOwned .accept).queueRelease o.number time)
      have first : abandonRadio time (o :: os) r = abandonRadio time os ((r.removeOwned .accept).queueRelease o.number time) := by
        simp [abandonRadio, accepted]
      rw [first]
      exact (Radio.queueRelease_held o.number time (r.removeOwned .accept)).imp rest.hasRelease fun full => full.trans rest.generalCount_le
    · exact ih _ ho

/-- The state in which the move to HIRED is told of: the trip opened, the current job taken over, the accepted offers ABANDONED. -/
def flaggedState (m : BandMode) (n : Nat) (img : Image) (s : State) : State := { s with
  trip := some (newTrip m (flagDownBand m n img s.tariff.clock) img s)
  evalDue := some (s.now + 1000)
  dist := { s.dist with metres := 0 }
  faults := logFault (decide (m = .auto) && !s.tariff.clock.isSet && !s.tariff.clockUnsetMark) .clockNotSet s.tariff.clock
    Config.flagDownFaultIsActive s.faults
  meter := { s.meter with
    notices := s.meter.notices ||| (if decide (m = .auto) && !s.tariff.clock.isSet && !s.tariff.clockUnsetMark then 0x20 else 0) }
  tariff := { s.tariff with clockUnsetMark := s.tariff.clockUnsetMark || (decide (m = .auto) && !s.tariff.clock.isSet) }
  pool := releaseBlocks ((s.duty.current.map (fun j => j.text.blocks)).getD []) s.pool
  duty := { s.duty with state := .hired, current := none }
  offers := { s.offers with entries := s.offers.entries.map (fun o => if o.accepted then { o with state := .abandoned } else o) }
  radio := abandonRadio s.tariff.clock s.offers.entries s.radio
  terminal := { s.terminal with notices := s.terminal.notices ||| 0x40 ||| (if s.duty.current.isSome then 0x02 else 0) |||
    (if acceptancePending s then 0x01 else 0) } }

/-- The trip opened (R6, R40). -/
theorem startTrip_eq (m : BandMode) (n : Nat) (img : Image) (s : State) : startTrip m n img s = { s with
    trip := some (newTrip m (flagDownBand m n img s.tariff.clock) img s)
    evalDue := some (s.now + 1000)
    dist := { s.dist with metres := 0 }
    faults := logFault (decide (m = .auto) && !s.tariff.clock.isSet && !s.tariff.clockUnsetMark) .clockNotSet s.tariff.clock
      Config.flagDownFaultIsActive s.faults
    meter := { s.meter with
      notices := s.meter.notices ||| (if decide (m = .auto) && !s.tariff.clock.isSet && !s.tariff.clockUnsetMark then 0x20 else 0) }
    tariff := { s.tariff with clockUnsetMark := s.tariff.clockUnsetMark || (decide (m = .auto) && !s.tariff.clock.isSet) }
    terminal := { s.terminal with notices := s.terminal.notices ||| 0x40 } } := by
  unfold startTrip
  rw [lookupMark_of_mode]
  rfl

/-- The cab HIRED, its current job taken over (R63). -/
theorem hireSlot_eq (s : State) : hireSlot s = { s with
    pool := releaseBlocks ((s.duty.current.map (fun j => j.text.blocks)).getD []) s.pool
    duty := { s.duty with state := .hired, current := none }
    terminal := { s.terminal with notices := s.terminal.notices ||| (if s.duty.current.isSome then 0x02 else 0) } } := by
  unfold hireSlot
  rw [place_if]

/-- The accepted offers ABANDONED (R95). -/
theorem abandonAccepted_eq (s : State) : abandonAccepted s = { s with
    offers := { s.offers with entries := s.offers.entries.map (fun o => if o.accepted then { o with state := .abandoned } else o) }
    radio := abandonRadio s.tariff.clock s.offers.entries s.radio
    terminal := { s.terminal with notices := s.terminal.notices ||| (if acceptancePending s then 0x01 else 0) } } := by
  unfold abandonAccepted
  rw [place_if]
  rfl

/-- A FLAG DOWN that is taken, up to the telling of it (R40, R63, R95). -/
theorem takeFlagDown_eq (m : BandMode) (n : Nat) (img : Image) (s : State) :
    takeFlagDown m n img s = dutyChanged .duty (flaggedState m n img s) := by
  unfold takeFlagDown
  rw [startTrip_eq, hireSlot_eq, abandonAccepted_eq]
  rfl

/-- A HIRED cab fits no offer (R91). -/
theorem filterReason_of_hired {s : State} (hired : s.duty.state = .hired) (stackable : Bool) : (filterReason s stackable).isSome = true := by
  unfold filterReason
  rw [hired]
  split
  · rfl
  · split
    · rfl
    · split <;> rfl

/-- No offer stays open at a FLAG DOWN (R95): an accepted one is ABANDONED, an OFFERED one declined. -/
theorem rechecked_abandoned {s : State} (hired : s.duty.state = .hired) (o : Offer) :
    Offer.rechecked s (if o.accepted then { o with state := .abandoned } else o) = { o with state := match o.state with
      | .offered _ => .declined ((filterReason s o.stackable).getD .busy)
      | .accepting _ => .abandoned
      | .awaitingAward _ => .abandoned
      | x => x } := by
  unfold Offer.accepted Offer.rechecked
  cases state : o.state
  case offered due =>
    obtain ⟨reason, declined⟩ := Option.isSome_iff_exists.1 (filterReason_of_hired hired o.stackable)
    simp [state, declined]
  all_goals simp [state]
  all_goals rw [← state]

/-- The offers that the re-check then declines are those OFFERED. -/
theorem unfit_abandoned {s : State} (hired : s.duty.state = .hired) (o : Offer) :
    Offer.unfit s (if o.accepted then { o with state := .abandoned } else o) = o.deadlineDue.isSome := by
  unfold Offer.accepted Offer.unfit Offer.deadlineDue
  cases state : o.state <;> simp [state, filterReason_of_hired hired]

/-- An offer is open when it is accepted or OFFERED (R87). -/
theorem Offer.not_final (o : Offer) : (!o.final) = (o.accepted || o.deadlineDue.isSome) := by
  unfold Offer.final Offer.accepted Offer.deadlineDue
  cases o.state <;> rfl

theorem any_or {α : Type} (p q : α → Bool) (l : List α) : l.any (fun a => p a || q a) = (l.any p || l.any q) := by
  induction l with
  | nil => rfl
  | cons a l ih =>
    simp only [List.any_cons, ih]
    ac_rfl

/-- The notices OFFER of the accepted and of the declined offers. -/
theorem offer_notices (notices : Byte) (a b : Bool) :
    notices ||| (if a then 0x01 else 0) ||| (if b then 0x01 else 0) = notices ||| (if a || b then 0x01 else 0) := by
  rw [BitVec.or_assoc]
  cases a <;> cases b <;> rfl

theorem flag_down_notices (notices job a b : Byte) : notices ||| 0x40 ||| job ||| a ||| 0x10 ||| b = notices ||| 0x50 ||| job ||| a ||| b := by
  have two : (0x50 : Byte) = 0x40 ||| 0x10 := rfl
  rw [two]
  ac_rfl

theorem acceptedExists_iff (s : State) : acceptancePending s = true ↔ ∃ o ∈ s.offers.entries, o.accepted = true := by
  simp [acceptancePending]

/-- The values that FLAG DOWN permits (R39; log 16). -/
theorem flagDownMode_eq_none (mode n : Nat) : flagDownMode mode n = none ↔ ¬(mode = 0 ∨ (mode = 1 ∧ 1 ≤ n ∧ n ≤ 4)) := by
  unfold flagDownMode bandModeOf within
  rcases mode with _ | _ | mode
  · simp
  · by_cases range : 1 ≤ n ∧ n ≤ 4 <;> simp [range]
  · simp

section
variable {mode n : Nat} {s : State}

theorem flagDown_of_trip (trip : s.trip.isSome) : flagDown mode n s = done .refusedState s := if_pos trip

theorem flagDown_of_bad_value (idle : s.trip = none) (bad : ¬(mode = 0 ∨ (mode = 1 ∧ 1 ≤ n ∧ n ≤ 4))) :
    flagDown mode n s = done .badValue s := by
  simp [flagDown, idle, (flagDownMode_eq_none mode n).2 bad]

theorem flagDownMode_of_permitted (permitted : mode = 0 ∨ (mode = 1 ∧ 1 ≤ n ∧ n ≤ 4)) : ∃ m, flagDownMode mode n = some m := by
  cases value : flagDownMode mode n with
  | none => exact absurd permitted ((flagDownMode_eq_none mode n).1 value)
  | some m => exact ⟨m, rfl⟩

theorem flagDown_of_no_tariff (idle : s.trip = none) (permitted : mode = 0 ∨ (mode = 1 ∧ 1 ≤ n ∧ n ≤ 4)) (none_active : s.tariff.active = none) :
    flagDown mode n s = done .noTariff s := by
  obtain ⟨m, value⟩ := flagDownMode_of_permitted permitted
  simp [flagDown, idle, value, none_active]

theorem flagDown_of_no_identity (idle : s.trip = none) (permitted : mode = 0 ∨ (mode = 1 ∧ 1 ≤ n ∧ n ≤ 4)) (active : s.tariff.active.isSome)
    (unset : s.settings.cab = 0 ∨ s.settings.fleet = 0 ∨ s.settings.k = 0) : flagDown mode n s = done .noIdentity s := by
  obtain ⟨m, value⟩ := flagDownMode_of_permitted permitted
  obtain ⟨i, active⟩ := Option.isSome_iff_exists.1 active
  simp [flagDown, idle, value, active, unset]

theorem flagDown_of_permitted {m : BandMode} {i : StoredImage} (idle : s.trip = none) (value : flagDownMode mode n = some m)
    (active : s.tariff.active = some i) (set : ¬(s.settings.cab = 0 ∨ s.settings.fleet = 0 ∨ s.settings.k = 0)) :
    flagDown mode n s = done .ok (takeFlagDown m n i.image s) := by
  simp [flagDown, idle, value, active, set]

end

/-- Settles O25: by the state in which the move to HIRED is told of, what that telling does, and R39's conditions in order. -/
theorem flagDownOpensTheTrip : Obligations.FlagDownOpensTheTrip := by
  refine ⟨?_, fun mode n s u takes hu => ?_⟩
  · rintro mode n b m i s u unset takes hu idle active cab fleet k named hunset
    have replies := exec_of_takes (owner := flagDown mode n) takes hu rfl
    have value : flagDownMode mode n = some m ∧ b = flagDownBand m n i.image u.tariff.clock := by
      rcases named with ⟨rfl, rfl, rfl⟩ | ⟨rfl, low, high, rfl, rfl⟩
      · exact ⟨rfl, rfl⟩
      · exact ⟨by simp [flagDownMode, bandModeOf, within, low, high], rfl⟩
    obtain ⟨value, rfl⟩ := value
    rw [replies, flagDown_of_permitted idle value active (by simp [cab, fleet, k])]
    refine ⟨takeFlagDown m n i.image u, rfl, takeFlagDown_frame m n i.image u, ?_⟩
    rw [takeFlagDown_eq]
    have hired : (flaggedState m n i.image u).duty.state = .hired := rfl
    have fits : ∀ stackable, filterReason (flaggedState m n i.image u) stackable =
        filterReason { u with duty := { u.duty with state := .hired } } stackable := filterReason_congr rfl rfl rfl rfl rfl
    have told := byOwners_dutyChanged .duty (flaggedState m n i.image u)
    subst hunset
    refine ⟨?_, rfl, rfl, rfl, rfl, rfl, ?_, ?_, dutyChanged_holds _ _, rfl, rfl, ?_, fun o ho accepted => ?_, fun accepted => ?_,
      fun o ho offered => ?_⟩
    · rfl
    · rw [dutyChanged_offers]
      refine congrArg (fun entries => { u.offers with entries := entries }) ?_
      refine List.map_map.trans (List.map_congr_left fun o _ => ?_)
      exact (rechecked_abandoned hired o).trans (by rw [fits] <;> rfl)
    · refine (dutyChanged_radio_rest _ _).trans ?_
      obtain ⟨queue, next, rest⟩ := abandonRadio_queue u.tariff.clock u.offers.entries u.radio
      have flagged : (flaggedState m n i.image u).radio = { u.radio with queue := queue, nextArrival := next } := rest
      rw [flagged]
    · have declined : (flaggedState m n i.image u).offers.entries.any (Offer.unfit (flaggedState m n i.image u)) =
          u.offers.entries.any (fun o => o.deadlineDue.isSome) := by
        refine List.any_map.trans (congrArg u.offers.entries.any (funext fun o => ?_))
        exact unfit_abandoned hired o
      have opened : u.offers.entries.any (fun o => !o.final) =
          (acceptancePending u || u.offers.entries.any (fun o => o.deadlineDue.isSome)) := by
        simp only [Offer.not_final, acceptancePending, any_or]
      rw [dutyChanged_terminal, declined, opened, ← offer_notices]
      exact congrArg (fun notices => { u.terminal with notices := notices }) (flag_down_notices _ _ _ _)
    · exact (abandonRadio_releases u.tariff.clock u.offers.entries u.radio ho accepted).imp told.hasRelease fun full =>
        full.trans told.generalCount_le
    · exact AcceptGone.dutyChanged (s := flaggedState m n i.image u)
        (abandonRadio_acceptGone u.tariff.clock u.offers.entries u.radio (.inl accepted)) .duty
    · have left : o.accepted = false := by
        unfold Offer.accepted
        unfold Offer.deadlineDue at offered
        cases state : o.state <;> simp_all
      have kept : o ∈ (flaggedState m n i.image u).offers.entries := List.mem_map.2 ⟨o, ho, by simp [left]⟩
      refine dutyChanged_declines .duty _ kept ?_
      have unfit := unfit_abandoned hired o
      rw [left] at unfit
      exact unfit.trans offered
  · have replies := exec_of_takes (owner := flagDown mode n) takes hu rfl
    refine ⟨fun trip => ?_, fun idle bad => ?_, fun idle permitted unset => ?_, fun idle permitted active unset => ?_⟩
    · rw [replies, flagDown_of_trip trip]
      rfl
    · rw [replies, flagDown_of_bad_value idle bad]
      rfl
    · rw [replies, flagDown_of_no_tariff idle permitted unset]
      rfl
    · rw [replies, flagDown_of_no_identity idle permitted active unset]
      rfl

end Sys2Proof.Machine
end


section
/-! PROOFS. The Offer Table (06): the entry of an offer (R82, R89 to R93), its acceptance (R97, R98) and its award (R69, R84, R103, R104). -/

namespace Sys2Proof.Machine

open Sys2Proof

/-! ## The tests of an offer (R89 to R92) -/

section
variable {a : Address} {o : OfferFields} {s : State}

/-- An offer that is delivered under a number and a zone is put to the tests. -/
theorem exec_offer_of_delivered (heard : Delivered (.offer a o) s) (number : o.number ≠ 0) (low : 1 ≤ o.zone) (high : o.zone ≤ 999) :
    exec (.offer a o) s = .next (sealDomain (takeOffer a o s)) :=
  receive_of_delivered heard (by simp [offerWellNumbered, within, number, low, high])

/-- The offer is addressed to this cab, or to a zone that it works (R89). -/
theorem offerAddressed_iff : offerAddressed a o s = true ↔
    (o.dest = .directed ∧ toCab a = true) ∨ (o.dest = .zone ∧ o.zone ∈ s.offers.zones) := by
  unfold offerAddressed
  cases o.dest <;> simp

theorem takeOffer_of_not_addressed (other : offerAddressed a o s = false) : takeOffer a o s = s := by simp [takeOffer, other]

/-- A repeat of a declined entry is declined again (R90). -/
theorem takeOffer_of_declined {x : Offer} {r : DeclineReason} (addressed : offerAddressed a o s = true) (found : findOffer o.number s = some x)
    (declined : x.state = .declined r) : takeOffer a o s = declineOffer o.number r s := by
  simp [takeOffer, addressed, found, declined]

/-- A repeat of any other entry is ignored (R90). -/
theorem takeOffer_of_repeat {x : Offer} (found : findOffer o.number s = some x) (other : x.reason = none) : takeOffer a o s = s := by
  unfold Offer.reason at other
  unfold takeOffer
  rw [found]
  cases state : x.state <;> simp [state] at other ⊢

/-- A number already awarded to this cab is ignored (R90). -/
theorem takeOffer_of_held (absent : findOffer o.number s = none) (held : numberHeld o.number s = true) : takeOffer a o s = s := by
  simp [takeOffer, absent, held]

/-- A new offer goes through the entry filter (R91). -/
theorem takeOffer_of_new (addressed : offerAddressed a o s = true) (absent : findOffer o.number s = none)
    (new : numberHeld o.number s = false) : takeOffer a o s = filterOffer o s := by simp [takeOffer, addressed, absent, new]

theorem filterOffer_of_unfit {r : DeclineReason} (unfit : filterReason s o.stackable = some r) : filterOffer o s = declineDirected o r s := by
  simp [filterOffer, entryReason_eq_filterReason, unfit]

/-- The offer hold (R91). -/
theorem filterOffer_of_hold (fits : filterReason s o.stackable = none) (zone : o.dest = .zone) (pending : acceptancePending s = true) :
    filterOffer o s = s := by simp [filterOffer, entryReason_eq_filterReason, fits, zone, pending]

theorem filterOffer_of_fit (fits : filterReason s o.stackable = none) (free : ¬(o.dest = .zone ∧ acceptancePending s = true)) :
    filterOffer o s = placeOffer o s := by
  simp only [filterOffer, entryReason_eq_filterReason, fits]
  rw [if_neg free]

/-- Eight open entries leave no place (R92). -/
theorem placeOffer_of_full (full : 8 ≤ s.offers.entries.length) (unsettled : ∀ x ∈ s.offers.entries, x.final = false) :
    placeOffer o s = declineDirected o .tableFull s := by
  have no_place : s.offers.entries.find? Offer.final = none := List.find?_eq_none.2 fun x hx => by simp [unsettled x hx]
  simp only [placeOffer, no_place]
  exact if_neg (Nat.not_lt.2 full)

/-- What follows a test that fails tells the centre only of a DIRECTED offer (R91, R92). -/
theorem declineDirected_of_addressed (r : DeclineReason) (addressed : offerAddressed a o s = true) :
    declineDirected o r s = if o.dest = .directed ∧ toCab a = true then { s with radio := s.radio.queueDecline o.number r } else s := by
  unfold declineDirected
  rcases offerAddressed_iff.1 addressed with ⟨directed, own⟩ | ⟨zone, -⟩
  · simp only [directed, own, and_self, if_true]
    rfl
  · simp only [zone, reduceCtorEq, false_and, if_false]

theorem not_directed_of_not_addressed (other : offerAddressed a o s = false) : ¬(o.dest = .directed ∧ toCab a = true) := fun directed => by
  rw [offerAddressed_iff.2 (.inl directed)] at other
  cases other

end

/-- Settles O41: by the tests of R89 to R92 in their order. -/
theorem offersAreTurnedAway : Obligations.OffersAreTurnedAway := by
  intro a o s heard number low high
  rw [exec_offer_of_delivered heard number low high]
  refine ⟨fun directed other => ?_, fun zone other => ?_, fun addressed x r found declined => ?_, fun x found other => ?_,
    fun absent held => ?_, fun absent new r unfit => ?_, fun absent new fits zone accepted => ?_, fun absent new fits full unsettled => ?_⟩
  · rw [takeOffer_of_not_addressed (by simp [offerAddressed, directed, other])]
  · rw [takeOffer_of_not_addressed (by simp [offerAddressed, zone, other])]
  · rw [takeOffer_of_declined (offerAddressed_iff.2 addressed) found declined]
    rfl
  · rw [takeOffer_of_repeat found other]
  · rw [takeOffer_of_held absent held]
  · cases addressed : offerAddressed a o s
    · rw [takeOffer_of_not_addressed addressed, if_neg (not_directed_of_not_addressed addressed)]
    · rw [takeOffer_of_new addressed absent new, filterOffer_of_unfit unfit, declineDirected_of_addressed r addressed]
  · cases addressed : offerAddressed a o s
    · rw [takeOffer_of_not_addressed addressed]
    · rw [takeOffer_of_new addressed absent new, filterOffer_of_hold fits zone ((acceptedExists_iff s).2 accepted)]
  · cases addressed : offerAddressed a o s
    · rw [takeOffer_of_not_addressed addressed, if_neg (not_directed_of_not_addressed addressed)]
    · rw [takeOffer_of_new addressed absent new]
      by_cases hold : o.dest = .zone ∧ acceptancePending s = true
      · rw [filterOffer_of_hold fits hold.1 hold.2, if_neg (by simp [hold.1])]
      · rw [filterOffer_of_fit fits hold, placeOffer_of_full full unsettled, declineDirected_of_addressed _ addressed]

/-! ## The entry of an offer (R82, R92, R93) -/

/-- The blocks that an offer's text is given, and the text they hold (R82). -/
theorem allocOffer_eq (h : Holder) (text : List Byte) (pool : List Block) (cut : Bool)
    (hcut : cut = decide (freeCount pool < (text.length + 31) / 32)) (granted : List Block × List Nat)
    (hgranted : granted = if cut then grantBlocks h (freeCount pool) (text.take (32 * freeCount pool)) pool
      else grantBlocks h ((text.length + 31) / 32) text pool) :
    allocOffer h text pool = (granted.1, ⟨granted.2, if cut then 32 * freeCount pool else text.length⟩, cut) := by
  have needed : blocksNeeded text.length = (text.length + 31) / 32 := rfl
  unfold allocOffer offerStored offerGrant
  rw [needed]
  by_cases short : freeCount pool < (text.length + 31) / 32
  · have given : min ((text.length + 31) / 32) (freeCount pool) = freeCount pool := by omega
    have unequal : freeCount pool ≠ (text.length + 31) / 32 := by omega
    simp only [short, decide_true] at hcut
    subst hcut
    simp only [if_true] at hgranted
    simp only [given, unequal, if_false, if_true, hgranted, Config.blockChars, ne_eq, not_false_eq_true, decide_true]
  · have given : min ((text.length + 31) / 32) (freeCount pool) = (text.length + 31) / 32 := by omega
    simp only [short, decide_false] at hcut
    subst hcut
    simp only [Bool.false_eq_true, if_false] at hgranted
    simp only [given, if_true, List.take_length, hgranted, ne_eq, not_true_eq_false, decide_false, Bool.false_eq_true, if_false]

/-- The first entry in a final state, in a table split at it. -/
theorem find_final_of_split {before after : List Offer} {x : Offer} (final : x.final = true) (unsettled : ∀ y ∈ before, y.final = false) :
    (before ++ x :: after).find? Offer.final = some x := by
  rw [List.find?_append, List.find?_eq_none.2 fun y hy => by simp [unsettled y hy], Option.none_or, List.find?_cons_of_pos final]

/-- Of distinct numbers, dropping one entry's number drops that entry alone. -/
theorem filter_number_of_split {before after : List Offer} {x : Offer} (distinct : ((before ++ x :: after).map Offer.number).Nodup) :
    (before ++ x :: after).filter (fun y => decide (y.number ≠ x.number)) = before ++ after := by
  have distinct_rest := List.nodup_middle.1 (by simpa using distinct : (before.map Offer.number ++ x.number :: after.map Offer.number).Nodup)
  have others : ∀ y ∈ before ++ after, y.number ≠ x.number := by
    intro y hy same
    refine (List.nodup_cons.1 distinct_rest).1 ?_
    rw [← List.map_append]
    exact List.mem_map.2 ⟨y, hy, same⟩
  rw [List.filter_append, List.filter_cons_of_neg (by simp), ← List.filter_append]
  exact List.filter_eq_self.2 fun y hy => decide_eq_true (others y hy)

/-- Settles O40: the tests of R89 to R91 pass, and the place is a free one or that of the oldest final entry. -/
theorem offersAreEntered : Obligations.OffersAreEntered := by
  intro a o s heard number low high addressed new_entry new fits room pool place granted cut hcut hgranted
  have absent : findOffer o.number s = none := List.find?_eq_none.2 fun x hx => by simpa using new_entry x hx
  have passed : offerAddressed a o s = true ∧ ¬(o.dest = .zone ∧ acceptancePending s = true) := by
    rcases addressed with ⟨directed, own⟩ | ⟨zone, listed, none_accepted⟩
    · exact ⟨offerAddressed_iff.2 (.inl ⟨directed, own⟩), by simp [directed]⟩
    · refine ⟨offerAddressed_iff.2 (.inr ⟨zone, listed⟩), fun hold => ?_⟩
      obtain ⟨x, hx, accepted⟩ := (acceptedExists_iff s).1 hold.2
      exact absurd accepted (by simp [none_accepted x hx])
  rw [exec_offer_of_delivered heard number low high, takeOffer_of_new passed.1 absent new, filterOffer_of_fit fits passed.2]
  have entered : ∀ t : State, t.pool = pool → enterOffer o t = { t with
      pool := granted.1
      offers := { t.offers with
        entries := t.offers.entries ++ [{
          number := o.number, dest := o.dest, zone := o.zone, stackable := o.stackable, account := o.account
          estimate := if o.estimate ≤ 99999 then some o.estimate else none
          text := ⟨granted.2, if cut then 32 * freeCount pool else o.text.length⟩, truncated := cut, deadline := max 5 (min o.deadline 60)
          arrival := t.offers.nextArrival, state := .offered (t.now + max 5 (min o.deadline 60) * 1000) }]
        nextArrival := t.offers.nextArrival + 1 }
      terminal := { t.terminal with notices := t.terminal.notices ||| 0x01 } } := by
    rintro t rfl
    rw [enterOffer, allocOffer_eq (.offer o.number) o.text t.pool cut hcut granted hgranted]
    rfl
  rcases place with ⟨free, rfl, hpool⟩ | ⟨full, distinct, before, x, after, split, final, unsettled, rfl, hpool⟩
  · have placed : placeOffer o s = enterOffer o s := if_pos free
    rw [placed, entered s hpool.symm]
  · have placed : placeOffer o s = enterOffer o (removeOffer x s) := by
      have oldest : s.offers.entries.find? Offer.final = some x := split ▸ find_final_of_split final unsettled
      simp only [placeOffer, oldest]
      exact if_neg (Nat.not_lt.2 full)
    have left : (removeOffer x s).offers.entries = before ++ after := by
      rw [split] at distinct
      exact (congrArg _ split).trans (filter_number_of_split distinct)
    rw [placed, entered (removeOffer x s) hpool.symm, left]
    rfl

/-! ## ACCEPT (R97, R98) -/

section
variable {n : Nat} {s : State} {o : Offer}

theorem accept_of_not_found (absent : findOffer n s = none) : accept n s = done .notFound s := by simp [accept, absent]

theorem accept_of_expired (found : findOffer n s = some o) (expired : o.state = .expired) : accept n s = done .tooLate s := by
  simp [accept, found, expired]

/-- Only an offer in OFFERED is accepted (R97). -/
theorem accept_of_closed (found : findOffer n s = some o) (other : o.state ≠ .expired) (closed : o.deadlineDue = none) :
    accept n s = done .refusedState s := by
  simp only [accept, found]
  split
  · exact absurd ‹_› other
  · next due state => simp [(o.deadlineDue_eq_some due).2 state] at closed
  · rfl

/-- One acceptance at a time (R97). -/
theorem accept_of_pending (found : findOffer n s = some o) (offered : o.deadlineDue.isSome) (pending : acceptancePending s = true) :
    accept n s = done .onePending s := by
  obtain ⟨due, offered⟩ := Option.isSome_iff_exists.1 offered
  simp [accept, found, (o.deadlineDue_eq_some due).1 offered, pending]

/-- An offer that the duty state no longer fits is refused (R97). -/
theorem accept_of_unfit (found : findOffer n s = some o) (offered : o.deadlineDue.isSome) (free : acceptancePending s = false)
    (unfit : offerFits s.duty o.stackable = false) : accept n s = done .refusedState s := by
  obtain ⟨due, offered⟩ := Option.isSome_iff_exists.1 offered
  simp [accept, found, (o.deadlineDue_eq_some due).1 offered, free, unfit]

theorem accept_of_fit (found : findOffer n s = some o) (offered : o.deadlineDue.isSome) (free : acceptancePending s = false)
    (fits : offerFits s.duty o.stackable = true) : accept n s = done .ok (takeAccept n s) := by
  obtain ⟨due, offered⟩ := Option.isSome_iff_exists.1 offered
  simp [accept, found, (o.deadlineDue_eq_some due).1 offered, free, fits]

end

/-- The reason for which an acceptance in SINGLE declines another offer (R98). -/
def otherAccepted (n : Nat) (o : Offer) : Option DeclineReason :=
  match o.state with
  | .offered _ => if o.number = n then none else some .otherAccepted
  | _ => none

/-- The Radio Link once the others are declined (R98, R99). -/
theorem declineOthers_radio (n : Nat) (s : State) : (declineOthers n s).radio = s.offers.entries.foldl (fun r o => match otherAccepted n o with
    | some reason => r.queueDecline o.number reason
    | none => r) s.radio := by
  refine congrArg (fun f => s.offers.entries.foldl f s.radio) (funext fun r => funext fun o => ?_)
  unfold otherAccepted
  cases o.state <;> try rfl
  by_cases own : o.number = n <;> simp only [own, if_true, if_false]

/-- The table with the accepted offer ACCEPTING and, in SINGLE, the others declined (R97, R98). -/
theorem takeAccept_offers (n : Nat) (s : State) : (takeAccept n s).offers = { s.offers with entries := s.offers.entries.map (fun x =>
    if x.number = n then { x with state := .accepting (s.now + 30000) }
    else match x.state with
      | .offered _ => if s.offers.mode = .single then { x with state := .declined .otherAccepted } else x
      | _ => x) } := by
  unfold takeAccept
  cases mode : s.offers.mode
  · refine congrArg (fun entries => { s.offers with entries := entries }) ?_
    refine List.map_map.trans (List.map_congr_left fun x _ => ?_)
    dsimp only [Function.comp]
    by_cases own : x.number = n
    · simp [own]
    · simp only [own, if_false]
      cases x.state <;> simp
  · refine congrArg (fun entries => { s.offers with entries := entries }) (List.map_congr_left fun x _ => ?_)
    by_cases own : x.number = n
    · simp [own]
    · simp only [own, if_false]
      cases x.state <;> simp

/-- The Radio Link after an acceptance: the ACCEPT entry, and in SINGLE the DECLINEs of the others. -/
theorem takeAccept_radio_single {n : Nat} {s : State} (single : s.offers.mode = .single) : (takeAccept n s).radio =
    (setStateOf n (.accepting (s.now + 30000)) s.offers.entries).foldl (fun r o => match otherAccepted n o with
      | some reason => r.queueDecline o.number reason
      | none => r) (s.radio.createReserved (.accept n)) := by
  unfold takeAccept
  rw [single]
  exact declineOthers_radio n _

theorem takeAccept_radio_multi {n : Nat} {s : State} (multi : s.offers.mode = .multi) :
    (takeAccept n s).radio = s.radio.createReserved (.accept n) := by
  unfold takeAccept
  rw [multi]
  rfl

/-- The queue after an acceptance is that of its ACCEPT entry, with DECLINEs at its end. -/
theorem takeAccept_queue (n : Nat) (s : State) : ∃ l, (takeAccept n s).radio.queue = (s.radio.createReserved (.accept n)).queue ++ l := by
  cases mode : s.offers.mode
  · obtain ⟨-, l, queue, -⟩ := queueDeclines (otherAccepted n) _ _ _ (takeAccept_radio_single (n := n) mode)
    exact ⟨l, queue⟩
  · exact ⟨[], by rw [takeAccept_radio_multi mode, List.append_nil]⟩

theorem takeAccept_terminal (n : Nat) (s : State) :
    (takeAccept n s).terminal = { s.terminal with notices := s.terminal.notices ||| 0x01 } := by
  unfold takeAccept
  cases s.offers.mode <;> rfl

/-- Settles O42: the six outcomes in order, and what an acceptance puts in the queue. -/
theorem acceptTakesOneOffer : Obligations.AcceptTakesOneOffer := by
  intro n s u takes hu
  have replies := exec_of_takes (owner := accept n) takes hu rfl
  have free_of : (∀ x ∈ u.offers.entries, x.accepted = false) → acceptancePending u = false := fun none_accepted => by
    simpa [acceptancePending] using none_accepted
  refine ⟨fun absent => ?_, fun o found => ⟨fun expired => ?_, fun other closed => ?_, fun offered pending => ?_, fun offered free unfit => ?_,
    fun offered free fits => ?_⟩⟩
  · rw [replies, accept_of_not_found absent]
    rfl
  · rw [replies, accept_of_expired found expired]
    rfl
  · rw [replies, accept_of_closed found other closed]
    rfl
  · rw [replies, accept_of_pending found offered ((acceptedExists_iff u).2 pending)]
    rfl
  · rw [replies, accept_of_unfit found offered (free_of free) unfit]
    rfl
  · rw [replies, accept_of_fit found offered (free_of free) fits]
    obtain ⟨l, queue⟩ := takeAccept_queue n u
    refine ⟨takeAccept n u, rfl, changesOnly_mono (takeAccept_frame n u) (by decide), takeAccept_offers n u, takeAccept_terminal n u, ?_,
      fun absent => ?_, fun single x hx other offered => ?_⟩
    · have held := Radio.createReserved_holds (.accept n) u.radio
      simp only [Radio.holds, List.any_eq_true, queue] at held ⊢
      obtain ⟨e, he, kind⟩ := held
      exact ⟨e, List.mem_append_left _ he, kind⟩
    · have created : (u.radio.createReserved (.accept n)).queue = u.radio.queue ++ [newEntry (.accept n) u.radio.nextArrival] := by
        unfold Radio.createReserved
        rw [if_neg (by simp [contentKind, absent])]
        rfl
      exact ⟨newEntry (.accept n) u.radio.nextArrival, by rw [queue, created]; simp, rfl, rfl⟩
    · obtain ⟨-, l, -, -, -, -, declined⟩ := queueDeclines (otherAccepted n) _ _ _ (takeAccept_radio_single (n := n) single)
      obtain ⟨due, offered⟩ := Option.isSome_iff_exists.1 offered
      have kept : x ∈ setStateOf n (.accepting (u.now + 30000)) u.offers.entries := List.mem_map.2 ⟨x, hx, if_neg other⟩
      exact declined x kept (by simp [otherAccepted, (x.deadlineDue_eq_some due).1 offered, other])

/-! ## AWARD (R69, R103, R104) -/

section
variable {n cab : Nat} {s : State} {o : Offer}

theorem exec_award_of_delivered (heard : Delivered (.award (.cab cab) n) s) (number : n ≠ 0) :
    exec (.award (.cab cab) n) s = .next (sealDomain (takeAward n s)) := receive_of_delivered heard (by simp [toCab, number])

/-- A number already awarded is ignored (R103). -/
theorem takeAward_of_held (held : numberHeld n s = true) : takeAward n s = s := if_pos held

/-- A number not accepted is released (R103, R104). -/
theorem takeAward_of_not_accepted (new : numberHeld n s = false) (other : ∀ o ∈ findOffer n s, o.accepted = false) :
    takeAward n s = releaseOffer n s := by
  unfold takeAward
  rw [if_neg (by simp [new])]
  split
  · next o found => rw [if_neg (by simp [other o found])]
  · rfl

theorem takeAward_of_accepted (new : numberHeld n s = false) (found : findOffer n s = some o) (accepted : o.accepted = true) :
    takeAward n s = placeJob o s := by simp [takeAward, new, found, accepted]

end

/-- No slot is called for: OFF DUTY, ASSIGNED, HIRED but not signed on, or HIRED or CLEARING with a next job held (R69). -/
theorem jobSlot_eq_none {d : DutyUnit} (h : d.state = .offDuty ∨ d.state = .assigned ∨ (d.state = .hired ∧ d.signedOn = false) ∨
    ((d.state = .hired ∨ d.state = .clearing) ∧ d.next.isSome)) : jobSlot d = none := by
  unfold jobSlot
  rcases h with state | state | ⟨state, off⟩ | ⟨state | state, next⟩
  · rw [state]
  · rw [state]
  · simp [state, off]
  · simp [state, Option.isNone_eq_false_iff.2 next]
  · simp [state, Option.isNone_eq_false_iff.2 next]

/-- The next-job slot is called for (R69). -/
theorem jobSlot_eq_next {d : DutyUnit} (h : d.state = .clearing ∨ (d.state = .hired ∧ d.signedOn = true)) (free : d.next = none) :
    jobSlot d = some .nextJob := by
  unfold jobSlot
  rcases h with state | ⟨state, on⟩
  · simp [state, free]
  · simp [state, on, free]

/-- Settles O45: by the slot that the cab's state calls for. -/
theorem awardsAreThePlacingOfJobs : Obligations.AwardsAreThePlacingOfJobs := by
  intro n cab s heard number
  rw [exec_award_of_delivered heard number]
  refine ⟨fun held => ?_, fun new other => ?_, ?_⟩
  · rw [takeAward_of_held held]
  · rw [takeAward_of_not_accepted new other]
    rfl
  · rintro o j new found accepted rfl
    rw [takeAward_of_accepted new found accepted, ← findOffer_number found]
    refine ⟨fun vacant => ?_, fun hired free => ?_, fun none_fits => ?_⟩
    · have slot : jobSlot s.duty = some .currentJob := by simp [jobSlot, vacant]
      rw [placeJob, slot]
      rfl
    · rw [placeJob, jobSlot_eq_next hired free]
      rfl
    · rw [placeJob, jobSlot_eq_none none_fits]
      rfl

end Sys2Proof.Machine
end


section
/-! PROOFS. The Tariff Store (02): the loading of an image's parts and the COMMIT (R25 to R28, 11.4). -/

namespace Sys2Proof.Machine

open Sys2Proof

/-! ## LOAD TARIFF PART and COMMIT TARIFF as they are answered (R27, R28) -/

section
variable {part expected : Nat} {content : List Byte} {s : State} {i : Image}

theorem loadTariffPart_of_staged {st : Staged} (whole : tariffContentLength part content = true)
    (staged : stagePart s.tariff.staged part content = some st) :
    loadTariffPart part content s = done .ok { s with tariff := { s.tariff with staged := st } } := by
  simp [loadTariffPart, whole, staged]

/-- A part with a value out of range is not stored (R27). -/
theorem loadTariffPart_of_bad_value (whole : tariffContentLength part content = true) (bad : stagePart s.tariff.staged part content = none) :
    loadTariffPart part content s = done .badValue s := by simp [loadTariffPart, whole, bad]

/-- An image has four parts (R25). -/
theorem stagePart_of_no_part (st : Staged) (none_such : 3 < part) : stagePart st part content = none := by
  match part, none_such with
  | _ + 4, _ => rfl

theorem commitTariff_of_incomplete (missing : s.tariff.staged.image = none) : commitTariff expected s = done .incomplete s := by
  simp [commitTariff, missing]

theorem commitTariff_of_mismatch (image : s.tariff.staged.image = some i) (other : expected ≠ (imageCheck i).toNat) :
    commitTariff expected s = done .checkMismatch s := by simp [commitTariff, image, other.symm]

/-- A commit while IDLE (R28). -/
theorem commitTariff_of_idle (image : s.tariff.staged.image = some i) (same : expected = (imageCheck i).toNat) (idle : s.trip = none) :
    commitTariff expected s = done .ok { s with
      tariff := { s.tariff with active := some ⟨i, imageCheck i⟩, staged := Staged.empty }
      meter := { s.meter with notices := s.meter.notices ||| 0x04 } } := by
  simp only [commitTariff, image, same, if_true, commitImage, idle]
  rfl

/-- A commit during a trip (R28). -/
theorem commitTariff_of_trip (image : s.tariff.staged.image = some i) (same : expected = (imageCheck i).toNat) (trip : s.trip.isSome) :
    commitTariff expected s = done .ok { s with
      tariff := { s.tariff with pending := some ⟨i, imageCheck i⟩, staged := Staged.empty } } := by
  obtain ⟨t, trip⟩ := Option.isSome_iff_exists.1 trip
  simp only [commitTariff, image, same, if_true, commitImage, trip]

end

/-- Settles O32: each outcome of the two commands in turn. -/
theorem partsAreStoredAndCommitsChecked : Obligations.PartsAreStoredAndCommitsChecked := by
  refine ⟨fun part content s u takes hu whole => ?_, fun expected s u takes hu => ?_⟩
  · have replies := exec_of_takes (owner := loadTariffPart part content) takes hu rfl
    refine ⟨fun st staged => ?_, fun bad => ?_, stagePart_of_no_part _⟩
    · rw [replies, loadTariffPart_of_staged whole staged]
      rfl
    · rw [replies, loadTariffPart_of_bad_value whole bad]
      rfl
  · have replies := exec_of_takes (owner := commitTariff expected) takes hu rfl
    refine ⟨fun missing => ?_, fun i image => ⟨fun other => ?_, fun same idle => ?_, fun same trip => ?_⟩⟩
    · rw [replies, commitTariff_of_incomplete missing]
      rfl
    · rw [replies, commitTariff_of_mismatch image other]
      rfl
    · rw [replies, commitTariff_of_idle image same idle]
      rfl
    · rw [replies, commitTariff_of_trip image same trip]
      rfl

/-! ## The loading of a whole image (R25 to R28) -/

/-- The state x of the Tariff Store is reached from s by requests of the Meter Port alone, none of which is PENDING. -/
structure Loading (s t : State) (x : TariffStore) : Prop where
  frame : changesOnly [.handed, .tariff, .meter] s t
  up : t.power = .up
  idle : bufferPending .meter t = false
  tariff : t.tariff = x

theorem replied_not_pending (p : Port) (c : Instr) (r : Result) (data : List Byte) (u : State) : bufferPending p (replied p c r data u) = false := by
  rw [bufferPending, replied, portState_sealDomain, portState_setBuffer]

/-- One request more, whose owner touches the Tariff Store and the Meter Port alone. -/
theorem Loading.next {s t : State} {x y : TariffStore} {c : Instr} {owner : State → Reply} (loading : Loading s t x)
    (runs : ∀ s, exec c s = whenUp (request .meter c owner) s)
    (takes : ∀ u, u.tariff = x → u.trip = s.trip → ∃ v, owner u = done .ok v ∧ changesOnly [.tariff, .meter] u v ∧ v.tariff = y) :
    ∃ u, exec c t = .next u ∧ Loading s u y ∧ u.meter.buffer = .held (commandCode c) .ok [] := by
  have can : canTake .meter c t = true := by simp [canTake, loading.idle]
  have arrival : changesOnly [.handed, .meter] t (arrived .meter c t) := arrived_port .meter c t
  have found : (arrived .meter c t).tariff = x := (arrival .tariff (by decide)).trans loading.tariff
  have trip : (arrived .meter c t).trip = s.trip := (arrival .trip (by decide)).trans (loading.frame .trip (by decide))
  obtain ⟨v, answers, own, stored⟩ := takes _ found trip
  have replies := exec_of_takes (owner := owner) ⟨loading.up, can⟩ rfl (runs t)
  rw [answers] at replies
  have held : changesOnly [.meter] v (replied .meter c .ok [] v) := by
    intro f other
    cases f <;> first | rfl | exact absurd (by decide) other
  have all := changesOnly_trans (changesOnly_mono arrival (by decide)) (changesOnly_trans (changesOnly_mono own (by decide))
    (changesOnly_mono (gs := [.handed, .tariff, .meter]) held (by decide)))
  refine ⟨_, replies, ⟨changesOnly_trans loading.frame all, ?_, replied_not_pending .meter c .ok [] v, stored⟩, rfl⟩
  exact (all .power (by decide)).trans loading.up

/-- A part loaded. -/
theorem Loading.part {s t : State} {x : TariffStore} {part : Nat} {content : List Byte} {f : Staged → Staged} (loading : Loading s t x)
    (stores : loadTariffPart part content = fun s : State => done .ok { s with tariff := { s.tariff with staged := f s.tariff.staged } }) :
    ∃ u, exec (.loadTariffPart part content) t = .next u ∧ Loading s u { x with staged := f x.staged } := by
  obtain ⟨u, runs, loaded, -⟩ := loading.next (c := .loadTariffPart part content) (owner := loadTariffPart part content)
    (y := { x with staged := f x.staged }) (fun _ => rfl) fun u found _ => by
      refine ⟨_, congrFun stores u, ?_, ?_⟩
      · intro f other
        cases f <;> first | rfl | exact absurd (by decide) other
      · simp only [found]
  exact ⟨u, runs, loaded⟩

/-- A complete image committed. -/
theorem Loading.commit {s t : State} {x : TariffStore} {i : Image} (loading : Loading s t x) (image : x.staged.image = some i) :
    ∃ u, exec (.commitTariff (imageCheck i).toNat) t = .next u ∧ Loading s u { x with
      staged := Staged.empty
      active := if s.trip = none then some ⟨i, imageCheck i⟩ else x.active
      pending := if s.trip = none then x.pending else some ⟨i, imageCheck i⟩ } ∧ u.meter.buffer = .held 0x18 .ok [] := by
  refine loading.next (c := .commitTariff (imageCheck i).toNat) (owner := commitTariff (imageCheck i).toNat) (fun _ => rfl) fun u found trip => ?_
  cases idle : s.trip with
  | none =>
    refine ⟨_, commitTariff_of_idle (found ▸ image) rfl (trip.trans idle), ?_, ?_⟩
    · intro f other
      cases f <;> first | rfl | exact absurd (by decide) other
    · simp only [found, if_true]
  | some t =>
    refine ⟨_, commitTariff_of_trip (found ▸ image) rfl (by simp [trip, idle]), ?_, ?_⟩
    · intro f other
      cases f <;> first | rfl | exact absurd (by decide) other
    · simp only [found, reduceCtorEq, if_false]

/-- Settles O31: the four parts stored in turn, and the image that they then make up committed. -/
theorem everyImageCanBeLoadedAndCommitted : Obligations.EveryImageCanBeLoadedAndCommitted := by
  rintro i s t inRange version up idle rfl
  obtain ⟨schedule8, extras8, ranges⟩ : i.schedule.length ≤ 8 ∧ i.extras.length ≤ 8 ∧ i.schedule.all ScheduleEntry.inRange = true ∧
      i.extras.all Extra.inRange = true := by
    simp only [Image.inRange, Bool.and_eq_true, decide_eq_true_eq] at inRange
    tauto
  obtain ⟨b1, b2, b3, b4⟩ : i.band1.inRange = true ∧ i.band2.inRange = true ∧ i.band3.inRange = true ∧ i.band4.inRange = true := by
    simp only [Image.inRange, Bool.and_eq_true] at inRange
    tauto
  have start : Loading s s s.tariff := ⟨changesOnly_refl _ s, up, idle, rfl⟩
  obtain ⟨s0, run0, load0⟩ := start.part (f := fun st => { st with part0 := some (i.version, i.band1, i.band2) })
    (loadTariffPart_part0 _ _ _ version b1 b2)
  obtain ⟨s1, run1, load1⟩ := load0.part (f := fun st => { st with part1 := some (i.band3, i.band4) }) (loadTariffPart_part1 _ _ b3 b4)
  obtain ⟨s2, run2, load2⟩ := load1.part (f := fun st => { st with part2 := some i.schedule })
    (loadTariffPart_part2 _ ranges.1 schedule8)
  obtain ⟨s3, run3, load3⟩ := load2.part (f := fun st => { st with part3 := some i.extras })
    (loadTariffPart_part3 _ ranges.2 extras8)
  obtain ⟨s4, run4, load4, held⟩ := load3.commit (i := i) rfl
  have reached : afterCommands (loadCommands i) s = s4 := by
    simp only [loadCommands, afterCommands, run0, run1, run2, run3, run4]
  rw [reached]
  exact ⟨load4.frame, load4.tariff, held⟩

end Sys2Proof.Machine
end


section
/-! PROOFS. The Text Block Pool (05): a granted text reads back (R79, R80); and the lengths of the uplink frames (R150, R176). -/

namespace Sys2Proof.Machine

open Sys2Proof

/-! ## Granted texts (R79, R80) -/

/-- A block's number is free when it is one of the pool without a holder (R79). -/
theorem mem_freeNumbers (pool : List Block) (n : Nat) : n ∈ freeNumbers pool ↔ n < pool.length ∧ blockOwner pool n = none := by
  unfold freeNumbers blockOwner
  simp only [List.mem_filter, List.mem_range]
  refine and_congr_right fun inside => ?_
  simp [List.getElem?_eq_getElem inside]

theorem freeNumbers_eq_filter (pool : List Block) :
    freeNumbers pool = (List.range pool.length).filter (fun n => (blockOwner pool n).isNone) := by
  refine List.filter_congr fun n inside => ?_
  have inside := List.mem_range.1 inside
  simp [blockOwner, List.getElem?_eq_getElem inside]

/-- Rising numbers, each once. -/
theorem freeNumbers_sorted (pool : List Block) : (freeNumbers pool).Pairwise (· < ·) :=
  List.Pairwise.sublist List.filter_sublist List.pairwise_lt_range

/-- After a grant of the k lowest free blocks the free ones are the rest (R80). -/
theorem freeNumbers_writeBlocks (h : Holder) (text : List Byte) (k : Nat) (pool : List Block) :
    freeNumbers (writeBlocks h ((freeNumbers pool).take k) text pool) = (freeNumbers pool).drop k := by
  obtain ⟨free, distinct⟩ := freeNumbers_take_free pool k
  have owners := writeBlocks_owner h ((freeNumbers pool).take k) text pool
  have left : freeNumbers (writeBlocks h ((freeNumbers pool).take k) text pool) =
      (freeNumbers pool).filter (fun n => decide (n ∉ (freeNumbers pool).take k)) := by
    rw [freeNumbers_eq_filter, writeBlocks_length]
    conv_rhs => rw [freeNumbers_eq_filter pool, List.filter_filter]
    rw [← freeNumbers_eq_filter pool]
    refine List.filter_congr fun n _ => ?_
    rw [owners n fun b hb => (free b hb).1]
    by_cases granted : n ∈ (freeNumbers pool).take k <;> simp [granted]
  have all_distinct : (freeNumbers pool).Nodup := (freeNumbers_sorted pool).imp (fun h => h.ne)
  rw [left]
  conv_lhs => rw [← List.take_append_drop k (freeNumbers pool)]
  rw [List.filter_append, List.filter_eq_nil_iff.2, List.nil_append, List.filter_eq_self.2]
  · intro n hn
    rw [← List.take_append_drop k (freeNumbers pool), List.nodup_append] at all_distinct
    rw [List.take_append_drop] at *
    exact decide_eq_true fun granted => all_distinct.2.2 n granted n hn rfl
  · intro n hn
    rw [List.take_append_drop]
    simpa using hn

/-- Settles O48: by what a grant writes, and the free numbers that it leaves. -/
theorem storedTextsReadBack : Obligations.StoredTextsReadBack := by
  intro h text pool after blocks room granted
  have hafter : after = writeBlocks h ((freeNumbers pool).take ((text.length + 31) / 32)) text pool := congrArg Prod.fst granted
  have hblocks : blocks = (freeNumbers pool).take ((text.length + 31) / 32) := congrArg Prod.snd granted
  obtain ⟨free, distinct⟩ := freeNumbers_take_free pool ((text.length + 31) / 32)
  have many := freeNumbers_length pool
  have count : ((freeNumbers pool).take ((text.length + 31) / 32)).length = (text.length + 31) / 32 := by
    rw [List.length_take, many]
    omega
  subst hafter hblocks
  refine ⟨?_, count, (freeNumbers_sorted pool).sublist (List.take_sublist _ _), writeBlocks_length _ _ _ _, ?_, fun n hn => ⟨(free n hn).2, ?_⟩,
    fun n hn => writeBlocks_other _ _ _ _ _ hn⟩
  · have written := writeBlocks_chars h _ text pool distinct fun b hb => (free b hb).1
    rw [readText, written, count, List.take_take]
    exact List.take_of_length_le (by simp only; omega)
  · rw [← freeNumbers_length, freeNumbers_writeBlocks, List.length_drop, many]
    omega
  · rw [writeBlocks_owner h _ text pool n fun b hb => (free b hb).1, if_pos hn]

/-! ## The lengths of the frames (R150, R176) -/

@[simp] theorem natBytes_length (n v : Nat) : (natBytes n v).length = n := by
  induction n with
  | zero => rfl
  | succ n ih => simp [natBytes, ih]

/-- The width of a packed group is the sum of its fields' (R175). -/
theorem packNat_width (fields : List (Nat × Nat)) : (packNat fields).1 = (fields.map Prod.fst).sum := by
  induction fields using List.reverseRecOn with
  | nil => rfl
  | append_singleton fields f ih =>
    rw [List.map_append, List.sum_append, ← ih]
    simp [packNat]

theorem packBytes_length (fields : List (Nat × Nat)) : (packBytes fields).length = (fields.map Prod.fst).sum / 8 := by
  rw [packBytes, natBytes_length, packNat_width]

@[simp] theorem optFrom1_length (n : Nat) (v : Option Nat) : (optFrom1 n v).length = n := natBytes_length _ _

@[simp] theorem clockBytes_length (c : ClockReading) : (clockBytes c).length = 3 := natBytes_length _ _

theorem fillTo_length (size : Nat) (bs : List Byte) : (fillTo size bs).length = max size bs.length := by
  simp only [fillTo, List.length_append, List.length_replicate]
  omega

/-- A frame is its payload with the sync word, five bytes of header and the CRC (R160, R176). -/
theorem uplinkFrame_length (s : State) (kind seq flags : Nat) (payload : List Byte) :
    (uplinkFrame s kind seq flags payload).length = payload.length + 9 := by
  simp only [uplinkFrame, List.length_append, natBytes_length, packBytes_length, List.map_cons, List.map_nil, List.sum_cons, List.sum_nil]
  omega

theorem buildPayload_length (c : Content) (s : State) :
    (buildPayload c s).length = max (payloadSize (contentKind c)) (payloadFields c s).length := fillTo_length _ _

theorem alertPayload_length (status : Nat) (blind : Bool) (s : State) : (alertPayload status blind s).length = 15 := by
  simp [alertPayload, packBytes_length]

/-- The failed-job-event record takes three bytes more (R73). -/
theorem statusPayload_length (reason : StatusReason) (s : State) :
    (statusPayload reason s).length = if s.duty.failedEvent.isSome then 11 else 8 := by
  unfold statusPayload
  cases s.duty.failedEvent <;> simp [packBytes_length]

theorem readText_length (pool : List Block) (ref : TextRef) : (readText pool ref).length ≤ ref.length := by
  rw [readText, List.length_take]
  exact Nat.min_le_left _ _

/-- A DRIVER MESSAGE fills its payload (R117, R120). -/
theorem driverMessagePayload_length {o : Outbound} (pool : List Block) (short : ∀ ref, o.content = .text ref → ref.length ≤ 60) :
    (driverMessagePayload o pool).length ≤ 71 := by
  unfold driverMessagePayload
  cases content : o.content with
  | canned code => simp
  | text ref =>
    have read := readText_length pool ref
    have bound := short ref content
    simp only [List.length_append, natBytes_length, optFrom1_length, textBytes]
    omega

/-- The payload as it is filled up (R176). -/
theorem buildPayload_size (c : Content) (s : State) (short : ∀ o ∈ s.messages.outbound, ∀ ref, o.content = .text ref → ref.length ≤ 60) :
    (buildPayload c s).length + 9 = frameSize s (contentKind c) := by
  rw [buildPayload_length]
  cases c with
  | alert cancelled =>
    simp only [payloadFields, alertPayload_length]
    rfl
  | accept n => simp [payloadFields, contentKind, payloadSize, frameSize]
  | jobEvent k n t => simp [payloadFields, contentKind, payloadSize, frameSize]
  | fareTotal =>
    have fields : (payloadFields .fareTotal s).length ≤ 39 := by
      simp only [payloadFields]
      cases carriedTrip s.closed with
      | none => simp
      | some c => simp [fareTotalPayload]
    simp only [contentKind, payloadSize, frameSize]
    omega
  | receipt n st => simp [payloadFields, contentKind, payloadSize, frameSize]
  | status reason =>
    simp only [payloadFields, statusPayload_length, contentKind, payloadSize, frameSize]
    split <;> rfl
  | decline n reason => simp [payloadFields, contentKind, payloadSize, frameSize]
  | driverMessage n =>
    have fields : (payloadFields (.driverMessage n) s).length ≤ 71 := by
      simp only [payloadFields]
      cases found : s.messages.outbound.find? (fun o => decide (o.localNumber = n)) with
      | none => simp
      | some o => exact driverMessagePayload_length s.pool (short o (List.mem_of_find?_eq_some found))
    simp only [contentKind, payloadSize, frameSize]
    omega

/-- Settles O59: a frame is nine bytes longer than its payload. -/
theorem uplinkFramesHaveTheirLengths : Obligations.UplinkFramesHaveTheirLengths := by
  intro c kind seq flags s short
  refine ⟨(uplinkFrame_length s kind seq flags _).trans (buildPayload_size c s short), ?_⟩
  unfold frameSize
  cases contentKind c <;> rfl

end Sys2Proof.Machine
end

section
/-! PROOFS. The Message Store (07): arrival, reading and deletion (R111 to R116), and the outbound messages (R117 to R120, R122). -/

namespace Sys2Proof.Machine

open Sys2Proof

/-! ## Arrival of a message (R111 to R113) -/

/-- A message's text is granted whole, or refused (R81). -/
theorem allocMessage_of_room {h : Holder} {text : List Byte} {pool : List Block} (room : (text.length + 31) / 32 + 8 ≤ freeCount pool) :
    allocMessage h text pool =
      some ((grantBlocks h ((text.length + 31) / 32) text pool).1, ⟨(grantBlocks h ((text.length + 31) / 32) text pool).2, text.length⟩) :=
  if_pos (.inr room)

theorem allocMessage_of_short {h : Holder} {text : List Byte} {pool : List Block} (characters : 1 ≤ text.length)
    (short : freeCount pool < (text.length + 31) / 32 + 8) : allocMessage h text pool = none := by
  refine if_neg fun either => ?_
  have needed : blocksNeeded text.length = (text.length + 31) / 32 := rfl
  simp only [needed, Config.reserveBlocks] at either
  omega

section
variable {a : Address} {n cls : Nat} {c : MessageClass} {text : List Byte} {s : State}

theorem exec_message_of_delivered (heard : Delivered (.message a n cls text) s) (number : n ≠ 0) (named : classOf cls = some c)
    (low : 1 ≤ text.length) (high : text.length ≤ 120) :
    exec (.message a n cls text) s = .next (sealDomain (takeMessage a n c text s)) := by
  have formed : messageWellFormed n cls text = true := by simp [messageWellFormed, number, named, within, low, high]
  refine (receive_of_delivered heard formed).trans ?_
  rw [named]
  rfl

/-- A directed message of the cab, or a FLEET BROADCAST for all or for a zone that it works (R111). -/
theorem messageAddressed_iff : messageAddressed a c s = true ↔
    toCab a = true ∨ (c = .broadcast ∧ (a = .all ∨ ∃ z ∈ s.offers.zones, a = .zone z)) := by
  unfold messageAddressed toCab
  cases a <;> simp

theorem takeMessage_of_not_addressed (other : messageAddressed a c s = false) : takeMessage a n c text s = s := by simp [takeMessage, other]

/-- A repeat of a message held (R112). -/
theorem takeMessage_of_held {m : Inbound} (addressed : messageAddressed a c s = true) (found : findInbound n s = some m) :
    takeMessage a n c text s = answerDirected c n (repeatStatus m) s := by simp [takeMessage, addressed, found]

/-- A repeat of a message lately removed (R112). -/
theorem takeMessage_of_removed (addressed : messageAddressed a c s = true) (absent : findInbound n s = none)
    (removed : n ∈ s.messages.removed) : takeMessage a n c text s = answerDirected c n .stored s := by
  simp [takeMessage, addressed, absent, removed]

theorem takeMessage_of_new (addressed : messageAddressed a c s = true) (absent : findInbound n s = none)
    (new : n ∉ s.messages.removed) : takeMessage a n c text s = roomForMessage n c text s := by
  simp [takeMessage, addressed, absent, new]

/-- Without room in the list or in the pool (R113). -/
theorem roomForMessage_of_full (characters : 1 ≤ text.length)
    (full : 16 ≤ s.messages.inbound.length ∨ freeCount s.pool < (text.length + 31) / 32 + 8) :
    roomForMessage n c text s = answerDirected c n .full s := by
  unfold roomForMessage
  split
  · next short =>
    have short : s.messages.inbound.length < 16 := short
    rw [allocMessage_of_short characters (full.resolve_left (by omega))]
  · rfl

theorem roomForMessage_of_room (short : s.messages.inbound.length < 16) (room : (text.length + 31) / 32 + 8 ≤ freeCount s.pool) :
    roomForMessage n c text s = storeMessage n c (grantBlocks (.inbound n) ((text.length + 31) / 32) text s.pool).1
      ⟨(grantBlocks (.inbound n) ((text.length + 31) / 32) text s.pool).2, text.length⟩ s := by
  have place : s.messages.inbound.length < Config.inboundMax := short
  simp only [roomForMessage, place, if_true, allocMessage_of_room room]

end

/-! ## The driver's reading and deletion (R115, R116) -/

section
variable {n : Nat} {s : State} {m : Inbound}

theorem findInbound_number (found : findInbound n s = some m) : m.number = n := by
  simpa using List.find?_some found

theorem markRead_of_not_found (absent : findInbound n s = none) : markRead n s = done .notFound s := by simp [markRead, absent]

theorem markRead_of_read (found : findInbound n s = some m) (read : m.read = true) : markRead n s = done .ok s := by
  simp [markRead, found, read]

/-- The reading of a message, with the RECEIPT of a PRIORITY one (R115). -/
theorem markRead_of_unread (found : findInbound n s = some m) (unread : m.read = false) : markRead n s = done .ok { s with
    messages := { s.messages with inbound := s.messages.inbound.map (fun x => if x.number = n then { x with read := true } else x) }
    radio := if m.cls = .priority then s.radio.queueReceipt n .read else s.radio } := by
  simp only [markRead, found, unread, Bool.false_eq_true, if_false]
  split <;> rfl

theorem delete_of_not_found (absent : findInbound n s = none) : delete n s = done .notFound s := by simp [delete, absent]

/-- A message that still requires its reply is kept (R116). -/
theorem delete_of_unanswered (found : findInbound n s = some m) (required : m.cls = .replyRequired) (unanswered : m.replied = false) :
    delete n s = done .refusedState s := by simp [delete, found, required, unanswered]

theorem delete_of_done (found : findInbound n s = some m) (free : m.cls ≠ .replyRequired ∨ m.replied = true) :
    delete n s = done .ok (takeDelete m s) := by
  simp only [delete, found]
  refine if_neg fun unanswered => ?_
  rcases free with other | replied
  · exact other unanswered.1
  · simp [replied] at unanswered

end

/-- A number joins the recently-removed list, which first drops its oldest when it holds 8 (R110). -/
theorem addRemoved_eq (n : Nat) {removed : List Nat} (few : removed.length ≤ 8) :
    addRemoved n removed = (if removed.length = 8 then removed.drop 1 else removed) ++ [n] := by
  unfold addRemoved
  simp only [Config.removedMax]
  by_cases full : removed.length = 8
  · simp [full]
  · have short : removed.length < 8 := by omega
    simp [full, short]

/-! ## The queueing of a RECEIPT (R114) -/

theorem Entry.isReceiptOf_iff (n : Nat) (e : Entry) : e.isReceiptOf n = true ↔ ∃ x, e.content = .receipt n x := by
  unfold Entry.isReceiptOf
  cases e.content with
  | receipt m x =>
    constructor
    · intro same
      exact ⟨x, by rw [of_decide_eq_true same]⟩
    · rintro ⟨y, same⟩
      simp_all
  | _ => simp

theorem Radio.queueReceipt_of_absent {n : Nat} {st : ReceiptStatus} {r : Radio} (absent : ∀ e ∈ r.queue, ∀ x, e.content ≠ .receipt n x) :
    r.queueReceipt n st = if r.generalCount < 8 then r.create (.receipt n st) else r := by
  have none_held : ¬r.queue.any (Entry.isReceiptOf n) = true := by
    simpa [Entry.isReceiptOf_iff] using absent
  rw [Radio.queueReceipt, if_neg none_held, Radio.createGeneral_eq]

/-- A RECEIPT held for the number takes the new status, its delivery restarted at once or after its transmission (R114, R155). -/
theorem receipt_refreshed (n : Nat) (st : ReceiptStatus) (e : Entry) (owned : e.kind = .receipt → e.removed = false) :
    (if e.isReceiptOf n ∧ e.content ≠ .receipt n st then e.refresh (.receipt n st) else e) = match e.content with
      | .receipt m x =>
        if m ≠ n ∨ x = st then e
        else if e.state = .sending then { e with content := .receipt n st, refreshed := true }
        else { e with content := .receipt n st, seq := none, retry := 0, backoff := 0, state := .ready, carriesFailed := false }
      | _ => e := by
  cases content : e.content with
  | receipt m x =>
    have kind : e.kind = .receipt := by rw [Entry.kind, content]; rfl
    have staying : e.leaving = false := by simp [Entry.leaving, owned kind]
    have mine : e.isReceiptOf n = true ↔ m = n := by
      rw [Entry.isReceiptOf_iff, content]
      simp
    simp only [mine]
    by_cases other : m = n
    · subst other
      by_cases same : x = st
      · simp [same]
      · simp [same, Entry.refresh, staying]
    · simp [other]
  | _ => simp [Entry.isReceiptOf, content]

/-- Settles O46: the tests of R111 to R113 in order, the two commands of the driver, and R114. -/
theorem messagesAreStoredReadAndDeleted : Obligations.MessagesAreStoredReadAndDeleted := by
  refine ⟨?_, fun n s u takes hu => ?_, fun n s u takes hu => ?_, fun n general st r hg => ⟨fun absent => ?_, fun held owned => ?_⟩⟩
  · rintro a n cls c text s answered heard number named low high rfl
    rw [exec_message_of_delivered heard number named low high]
    refine ⟨fun other directed => ?_, fun z zone other => ?_, fun addressed => ?_⟩
    · rw [takeMessage_of_not_addressed]
      rw [← Bool.not_eq_true, messageAddressed_iff]
      simp [other, directed]
    · rw [takeMessage_of_not_addressed]
      rw [← Bool.not_eq_true, messageAddressed_iff, zone]
      simp [toCab, other]
    · have addressed := messageAddressed_iff.2 addressed
      refine ⟨fun m found => ?_, fun absent removed => ?_, fun absent new full => ?_, fun absent new short room g hg => ?_⟩
      · rw [takeMessage_of_held addressed found]
        rfl
      · rw [takeMessage_of_removed addressed absent removed]
        rfl
      · rw [takeMessage_of_new addressed absent new, roomForMessage_of_full low full]
        rfl
      · rw [takeMessage_of_new addressed absent new, roomForMessage_of_room short room, ← hg]
        rfl
  · have replies := exec_of_takes (owner := markRead n) takes hu rfl
    refine ⟨fun absent => ?_, fun m found read => ?_, fun m found unread => ?_⟩
    · rw [replies, markRead_of_not_found absent]
      rfl
    · rw [replies, markRead_of_read found read]
      rfl
    · rw [replies, markRead_of_unread found unread]
      rfl
  · have replies := exec_of_takes (owner := delete n) takes hu rfl
    refine ⟨fun absent => ?_, fun m found required unanswered => ?_, fun m found free few => ?_⟩
    · rw [replies, delete_of_not_found absent]
      rfl
    · rw [replies, delete_of_unanswered found required unanswered]
      rfl
    · rw [replies, delete_of_done found free, takeDelete, findInbound_number found, addRemoved_eq n few]
      rfl
  · rw [← Radio.generalCount_eq] at hg
    subst hg
    exact Radio.queueReceipt_of_absent absent
  · obtain ⟨e, he, x, content⟩ := held
    have held : r.queue.any (Entry.isReceiptOf n) = true := List.any_eq_true.2 ⟨e, he, (Entry.isReceiptOf_iff n e).2 ⟨x, content⟩⟩
    rw [Radio.queueReceipt, if_pos held]
    refine congrArg (fun queue => { r with queue := queue }) (List.map_congr_left fun e he => ?_)
    exact receipt_refreshed n st e (owned e he)

/-! ## SEND MESSAGE and REPLY (R117 to R119) -/

/-- A canned code or a text in range, and not both (R118). -/
def Given (canned : Nat) (text : List Byte) : Prop :=
  (canned = 0 ∧ 1 ≤ text.length ∧ text.length ≤ 60) ∨ (1 ≤ canned ∧ canned ≤ 31 ∧ text = [])

theorem outboundGiven_of_not (canned : Nat) (text : List Byte) (bad : ¬Given canned text) : outboundGiven canned text = none := by
  unfold Given at bad
  unfold outboundGiven within
  rw [if_neg (by simp only [decide_eq_true_eq]; tauto), if_neg (by simp only [decide_eq_true_eq]; tauto)]

theorem outboundGiven_of (canned : Nat) (text : List Byte) (given : Given canned text) :
    outboundGiven canned text = some (if canned = 0 then none else some canned) := by
  unfold outboundGiven within
  rcases given with ⟨rfl, low, high⟩ | ⟨low, high, rfl⟩
  · simp [low, high]
  · have other : canned ≠ 0 := by omega
    simp [other, low, high]

section
variable {linked : Option Nat} {canned : Nat} {text : List Byte} {s : State} {room : List Outbound}

theorem sendMessage_of_not_given (bad : ¬Given canned text) : sendMessage linked canned text s = done .badValue s := by
  simp [sendMessage, outboundGiven_of_not canned text bad]

/-- Six unresolved entries leave no place (R118). -/
theorem roomForOutbound_of_unresolved {l : List Outbound} (six : l.length = 6) (unresolved : ∀ o ∈ l, o.resolved = false) :
    roomForOutbound l = none := by
  have none_resolved : l.find? Outbound.resolved = none := List.find?_eq_none.2 fun o ho => by simp [unresolved o ho]
  simp [roomForOutbound, six, Config.outboundMax, none_resolved]

/-- The oldest resolved of six entries makes way, its local number held by it alone (R117, R118). -/
theorem roomForOutbound_of_resolved {before after : List Outbound} {o : Outbound} (six : (before ++ o :: after).length = 6)
    (distinct : ((before ++ o :: after).map Outbound.localNumber).Nodup) (resolved : o.resolved = true)
    (older : ∀ x ∈ before, x.resolved = false) : roomForOutbound (before ++ o :: after) = some (before ++ after) := by
  have oldest : (before ++ o :: after).find? Outbound.resolved = some o := by
    rw [List.find?_append, List.find?_eq_none.2 fun x hx => by simp [older x hx], Option.none_or, List.find?_cons_of_pos resolved]
  have alone := List.nodup_middle.1 (by simpa using distinct :
    (before.map Outbound.localNumber ++ o.localNumber :: after.map Outbound.localNumber).Nodup)
  have others : ∀ x ∈ before ++ after, x.localNumber ≠ o.localNumber := by
    intro x hx same
    refine (List.nodup_cons.1 alone).1 ?_
    rw [← List.map_append]
    exact List.mem_map.2 ⟨x, hx, same⟩
  have kept : (before ++ o :: after).filter (fun x => decide (x.localNumber ≠ o.localNumber)) = before ++ after := by
    rw [List.filter_append, List.filter_cons_of_neg (by simp), ← List.filter_append]
    exact List.filter_eq_self.2 fun x hx => decide_eq_true (others x hx)
  rw [roomForOutbound, if_neg (by simp [six, Config.outboundMax]), oldest]
  exact congrArg some kept

/-- The list and the pool have no room (R118). -/
theorem sendMessage_of_full (given : Given canned text)
    (full : roomForOutbound s.messages.outbound = none ∨ (canned = 0 ∧ freeCount s.pool < (text.length + 31) / 32 + 8)) :
    sendMessage linked canned text s = done .full s := by
  simp only [sendMessage, outboundGiven_of canned text given, takeOutbound]
  cases room : roomForOutbound s.messages.outbound with
  | none => rfl
  | some l =>
    obtain ⟨rfl, short⟩ := full.resolve_left (by simp [room])
    have characters : 1 ≤ text.length := by
      rcases given with ⟨-, low, -⟩ | ⟨low, -⟩
      · exact low
      · omega
    simp only [if_true, allocMessage_of_short characters short]

/-- A canned message that finds a place (R118). -/
theorem sendMessage_canned (given : Given canned text) (code : canned ≠ 0) (place : roomForOutbound s.messages.outbound = some room) :
    sendMessage linked canned text s = addOutbound room (freeLocal room 7 s.messages.nextLocal) linked (.canned canned) s.pool s := by
  simp only [sendMessage, outboundGiven_of canned text given, takeOutbound, place, code, if_false]

/-- A text that finds a place and its blocks (R118). -/
theorem sendMessage_text (given : Given 0 text) (place : roomForOutbound s.messages.outbound = some room)
    (blocks : (text.length + 31) / 32 + 8 ≤ freeCount s.pool) :
    sendMessage linked 0 text s = addOutbound room (freeLocal room 7 s.messages.nextLocal) linked
      (.text ⟨(grantBlocks (.outbound (freeLocal room 7 s.messages.nextLocal)) ((text.length + 31) / 32) text s.pool).2, text.length⟩)
      (grantBlocks (.outbound (freeLocal room 7 s.messages.nextLocal)) ((text.length + 31) / 32) text s.pool).1 s := by
  simp only [sendMessage, outboundGiven_of 0 text given, takeOutbound, place, if_true, allocMessage_of_room blocks]

end

/-- What a REPLY does besides, once it is taken (R119). -/
def setReplied (m : Nat) (y : State) : State := { y with messages := { y.messages with
  inbound := y.messages.inbound.map (fun i => if i.number = m then { i with replied := true } else i) } }

/-- The two commands send a message by one procedure: c is answered as r answers, its state marked when r succeeds. -/
structure Sends (c : Instr) (linked : Option Nat) (canned : Nat) (text : List Byte) (mark : State → State) (s u : State) : Prop where
  refused : ∀ r, r ≠ .ok → sendMessage linked canned text u = done r u → exec c s = .next (replied .terminal c r [] u)
  taken : ∀ data v, sendMessage linked canned text u = (v, .ok, data) → exec c s = .next (replied .terminal c .ok data (mark v))

theorem sends_sendMessage {canned : Nat} {text : List Byte} {s u : State} (takes : Takes .terminal (.sendMessage canned text) s)
    (hu : u = arrived .terminal (.sendMessage canned text) s) : Sends (.sendMessage canned text) none canned text (fun y => y) s u := by
  have replies := exec_of_takes (owner := sendMessage none canned text) takes hu rfl
  refine ⟨fun r _ answers => ?_, fun data v answers => ?_⟩
  · rw [replies, answers]
    rfl
  · rw [replies, answers]

theorem sends_reply {m canned : Nat} {text : List Byte} {s u : State} {x : Inbound} (takes : Takes .terminal (.reply m canned text) s)
    (hu : u = arrived .terminal (.reply m canned text) s) (found : findInbound m u = some x) (directed : x.cls ≠ .broadcast) :
    Sends (.reply m canned text) (some m) canned text (setReplied m) s u := by
  have replies := exec_of_takes (owner := reply m canned text) takes hu rfl
  have owner : reply m canned text u = markReplied m (sendMessage (some m) canned text u) := by
    simp only [reply, found, directed, if_false]
  refine ⟨fun r other answers => ?_, fun data v answers => ?_⟩
  · rw [replies, owner, answers, markReplied]
    simp only [done, other, if_false]
  · rw [replies, owner, answers, markReplied]
    simp only [if_true]
    rfl

/-! ## The oldest waiting message (R120) and DISMISS OUTBOUND (R122) -/

theorem queueWaiting_of_none {s : State} (none_waits : 8 ≤ s.radio.generalCount ∨ ∀ o ∈ s.messages.outbound, o.state ≠ .waiting) :
    queueWaiting s = s := by
  unfold queueWaiting
  split
  · rfl
  · next o found =>
    rcases none_waits with full | none_waits
    · exact if_neg fun free => absurd ((Radio.generalFree_iff _).1 free) (Nat.not_lt.2 full)
    · exact absurd (by simpa using List.find?_some found) (none_waits o (List.mem_of_find?_eq_some found))

theorem queueWaiting_of_oldest {s : State} {before after : List Outbound} {o : Outbound} (free : s.radio.generalCount < 8)
    (split : s.messages.outbound = before ++ o :: after) (waits : o.state = .waiting) (older : ∀ x ∈ before, x.state ≠ .waiting) :
    queueWaiting s = { s with
      radio := s.radio.create (.driverMessage o.localNumber)
      messages := { s.messages with
        outbound := s.messages.outbound.map (fun x => if x.localNumber = o.localNumber then { x with state := .queued } else x) } } := by
  have oldest : s.messages.outbound.find? (fun x => decide (x.state = .waiting)) = some o := by
    rw [split, List.find?_append, List.find?_eq_none.2 fun x hx => by simp [older x hx], Option.none_or,
      List.find?_cons_of_pos (by simp [waits])]
  simp only [queueWaiting, oldest, (Radio.generalFree_iff _).2 free, if_true]

section
variable {n : Nat} {s : State} {o : Outbound}

theorem dismissOutbound_of_not_found (absent : findOutbound n s = none) : dismissOutbound n s = done .notFound s := by
  simp [dismissOutbound, absent]

theorem dismissOutbound_of_unresolved (found : findOutbound n s = some o) (unresolved : o.resolved = false) :
    dismissOutbound n s = done .refusedState s := by simp [dismissOutbound, found, unresolved]

theorem dismissOutbound_of_resolved (found : findOutbound n s = some o) (resolved : o.resolved = true) :
    dismissOutbound n s = done .ok { s with
      messages := { s.messages with outbound := s.messages.outbound.filter (fun x => decide (x.localNumber ≠ n)) } } := by
  simp [dismissOutbound, found, resolved]

end

/-- The next local number (R117). -/
theorem nextLocalAfter_eq_if {n : Nat} (high : n ≤ 255) : nextLocalAfter n = if n = 255 then 1 else n + 1 := by
  unfold nextLocalAfter
  split <;> split <;> omega

/-- The reply of a message that is sent names its local number (R118). -/
theorem addOutbound_eq (room : List Outbound) {n : Nat} (linked : Option Nat) (content : OutboundContent) (pool : List Block) (s : State)
    (high : n ≤ 255) : addOutbound room n linked content pool s = (queueWaiting { s with
      pool := pool
      messages := { s.messages with
        outbound := room ++ [⟨n, linked, content, .waiting⟩]
        nextLocal := if n = 255 then 1 else n + 1 } }, .ok, natBytes 1 n) := by
  rw [addOutbound, nextLocalAfter_eq_if high]

/-- Settles O47: the two commands by their one procedure, the queueing of the oldest message, and the dismissal. -/
theorem outboundMessagesGetALocalNumber : Obligations.OutboundMessagesGetALocalNumber := by
  refine ⟨?_, fun m canned text s u takes hu => ?_, fun u general hg => ?_, fun n s u takes hu => ?_⟩
  · intro canned text linked c mark s u takes hu law which
    have sends : Sends c linked canned text mark s u := by
      rcases which with ⟨rfl, rfl, rfl⟩ | ⟨m, x, rfl, found, directed, rfl, rfl⟩
      · exact sends_sendMessage takes hu
      · exact sends_reply takes hu found directed
    refine ⟨fun bad => sends.refused .badValue (by decide) (sendMessage_of_not_given bad), fun given => ⟨fun six unresolved => ?_,
      fun text_given short => ?_, fun room place blocks => ?_⟩⟩
    · exact sends.refused .full (by decide) (sendMessage_of_full given (.inl (roomForOutbound_of_unresolved six unresolved)))
    · exact sends.refused .full (by decide) (sendMessage_of_full given (.inr ⟨text_given, short⟩))
    · obtain ⟨-, -, -, -, -, six, distinct, -, low, high⟩ := law
      have made : roomForOutbound u.messages.outbound = some room ∧ room.length ≤ 6 := by
        rcases place with ⟨short, rfl⟩ | ⟨full, before, o, after, split, resolved, older, rfl⟩
        · exact ⟨if_pos short, six⟩
        · rw [split] at full distinct
          refine ⟨split ▸ roomForOutbound_of_resolved full distinct resolved older, ?_⟩
          simp only [List.length_append, List.length_cons] at full ⊢
          omega
      obtain ⟨k, number, fresh, taken⟩ := freeLocal_first room u.messages.nextLocal made.2 low high
      have bound : freeLocal room 7 u.messages.nextLocal ≤ 255 := by omega
      rw [← number] at fresh
      by_cases code : canned = 0
      · subst code
        refine ⟨_, k, _, _, sends.taken _ _ ((sendMessage_text given made.1 (blocks rfl)).trans (addOutbound_eq _ _ _ _ _ bound)), number,
          fresh, taken, fun other => absurd rfl other, ?_⟩
        rintro _ g rfl
        exact ⟨rfl, rfl⟩
      · exact ⟨_, k, _, _, sends.taken _ _ ((sendMessage_canned given code made.1).trans (addOutbound_eq _ _ _ _ _ bound)), number, fresh,
          taken, fun _ => ⟨rfl, rfl⟩, fun zero => absurd zero code⟩
  · have replies := exec_of_takes (owner := reply m canned text) takes hu rfl
    refine ⟨fun absent => ?_, fun x found broadcast => ?_⟩
    · rw [replies, reply, absent]
      rfl
    · have refused : reply m canned text u = done .refusedState u := by simp [reply, found, broadcast]
      rw [replies, refused]
      rfl
  · rw [← Radio.generalCount_eq] at hg
    subst hg
    exact ⟨queueWaiting_of_none, fun free before o after split waits older => queueWaiting_of_oldest free split waits older⟩
  · have replies := exec_of_takes (owner := dismissOutbound n) takes hu rfl
    refine ⟨fun absent => ?_, fun o found unresolved => ?_, fun o found resolved => ?_⟩
    · rw [replies, dismissOutbound_of_not_found absent]
      rfl
    · rw [replies, dismissOutbound_of_unresolved found unresolved]
      rfl
    · rw [replies, dismissOutbound_of_resolved found resolved]
      rfl

end Sys2Proof.Machine
end


section
/-! PROOFS. The Alarm Unit (08): the marks of the alarm lines (R123, R124, R173), the beacon and the ALERTs it makes (R135, R136, R138 to R140,
R163), and the ways out of an emergency (R55, R131 to R134). -/

namespace Sys2Proof.Machine

open Sys2Proof

/-! ## The alarm lines (R123, R124, R173) -/

section
variable {line : AlarmLine} {l : Level} {s : State}

/-- A line not armed arms at its inactive level (R123). -/
theorem takeArmed_of_inactive (inactive : activeLevel (lineSensitivity line s) ≠ some l) (unarmed : (lineState line s).armed = false) :
    takeArmed line l s = setLine line ⟨some l, true, false⟩ s := by simp [takeArmed, inactive, unarmed]

theorem takeArmed_of_active (active : activeLevel (lineSensitivity line s) = some l) : takeArmed line l s = s := if_pos active

/-- A line that has stood at its active level is stuck, logged once (R124). -/
theorem takeStuck_of_active (active : activeLevel (lineSensitivity line s) = some l) (free : (lineState line s).stuck = false)
    (stood : (lineState line s).level = none ∨ (lineState line s).level = some l) :
    takeStuck line s = placeFault .alarmLineStuck s.trip.isSome (setLine line ⟨some l, false, true⟩ s) := by
  have stands : standsActive line s = true := by
    rcases stood with level | level <;> simp [standsActive, active, level]
  rw [takeStuck, if_pos ⟨stands, free⟩, active]
  rfl

theorem takeStuck_of_stuck (stuck : (lineState line s).stuck = true) : takeStuck line s = s := if_neg fun both => by simp [stuck] at both

/-- Under BOTH no level is active (R123). -/
theorem takeStuck_of_both (both : activeLevel (lineSensitivity line s) = none) : takeStuck line s = s :=
  if_neg fun stands => by simp [standsActive, both] at stands

/-- A sensitivity is set only off duty and out of an emergency (R173). -/
theorem setSensitivity_refused {v : Nat} (h : s.duty.state ≠ .offDuty ∨ s.alarm.record.state ≠ .normal) :
    setSensitivity line v s = done .refusedState s := if_pos (h.imp_right fun emergency => decide_eq_true emergency)

theorem setSensitivity_permitted {v : Nat} (off : s.duty.state = .offDuty) (normal : s.alarm.record.state = .normal) :
    setSensitivity line v s = match sensitivityOf v with
      | some x => done .ok (changeSensitivity line x s)
      | none => done .badValue s := if_neg (by simp [off, inEmergency, normal])

end

/-- Settles O50: each row and each outcome of the setting in turn. -/
theorem alarmLinesArmStickAndAreSet : Obligations.AlarmLinesArmStickAndAreSet := by
  refine ⟨fun line l s up => ?_, fun line v s u takes hu => ?_⟩
  · have arms : exec (.lineArmed line l) s = .next (sealDomain (takeArmed line l s)) := whenUp_up up
    have sticks : exec (.alarmLineStuck line) s = .next (sealDomain (takeStuck line s)) := whenUp_up up
    refine ⟨fun inactive unarmed => ?_, fun active => ?_, fun active level free stood => ?_, fun stuck => ?_, fun both => ?_⟩
    · rw [arms, takeArmed_of_inactive inactive unarmed]
    · rw [arms, takeArmed_of_active active]
    · rw [sticks, takeStuck_of_active level free stood]
    · rw [sticks, takeStuck_of_stuck stuck]
    · rw [sticks, takeStuck_of_both both]
  · have replies := exec_of_takes (owner := setSensitivity line v) takes hu rfl
    refine ⟨fun refused => ?_, fun off normal => ⟨fun out => ?_, fun x named same => ?_, fun x named other => ?_⟩⟩
    · rw [replies, setSensitivity_refused refused]
      rfl
    · have unnamed : sensitivityOf v = none := by
        match v, out with
        | _ + 4, _ => rfl
      rw [replies, setSensitivity_permitted off normal, unnamed]
      rfl
    · rw [replies, setSensitivity_permitted off normal, named]
      simp only [changeSensitivity, same, if_true]
      rfl
    · rw [replies, setSensitivity_permitted off normal, named]
      simp only [changeSensitivity, other.symm, if_false]
      cases line <;> rfl

/-! ## The making of an ALERT (R138 to R140, R163) -/

section
variable {cancelled : Bool} {status : Nat} {s : State}

theorem makeAlert_of_link (up : s.radio.link ≠ .lost) :
    makeAlert cancelled status s = { s with radio := s.radio.refreshReserved (.alert cancelled) } := by
  unfold makeAlert
  cases link : s.radio.link
  case lost => exact absurd link up
  all_goals rfl

theorem makeAlert_of_lost (lost : s.radio.link = .lost) :
    makeAlert cancelled status s = sendBlind status { s with radio := s.radio.removeOwned .alert } := by
  unfold makeAlert
  rw [lost]

theorem Radio.refreshReserved_of_absent {c : Content} {r : Radio} (absent : ∀ e ∈ r.queue, e.kind ≠ contentKind c) :
    r.refreshReserved c = r.create c := if_neg (by simpa [Radio.holds] using absent)

theorem Radio.refreshReserved_of_held {c : Content} {r : Radio} (held : ∃ e ∈ r.queue, e.kind = contentKind c) :
    r.refreshReserved c = { r with queue := r.queue.map (fun e => if e.kind = contentKind c then e.refresh c else e) } :=
  if_pos (by simpa [Radio.holds] using held)

/-- A refresh by the state of the entry (R155): READY anew, to be so when its transmission ends, or followed by a new one where it leaves. -/
theorem Entry.refresh_eq (c : Content) (e : Entry) : e.refresh c =
    if e.state ≠ .sending then { e with content := c, seq := none, retry := 0, backoff := 0, state := .ready, carriesFailed := false }
    else if e.removed then { e with deferred := some c }
    else { e with content := c, refreshed := true } := by
  unfold Entry.refresh Entry.leaving
  by_cases sending : e.state = .sending
  · cases e.removed <;> simp [sending]
  · simp [sending]

/-- The lead and the air time of a frame (R150). -/
theorem sendTime_eq (s : State) (bytes : Nat) :
    sendTime s bytes = s.settings.keyLead + (bytes * 8000 + s.settings.airRate - 1) / s.settings.airRate := by
  rw [sendTime, airTime, Nat.mul_assoc]

/-- A blind ALERT goes out at once, waits for KEY, or, without an identity, does neither (R139, R163). -/
theorem sendBlind_eq (status : Nat) (s : State) : sendBlind status s = { s with radio := { s.radio with
    tx := if s.settings.cab ≠ 0 ∧ s.settings.fleet ≠ 0 ∧ s.radio.tx = none then
        some ⟨.blind, blindFrame status s, s.now, s.now + sendTime s (blindFrame status s).length⟩
      else s.radio.tx
    blindWaiting := if s.settings.cab ≠ 0 ∧ s.settings.fleet ≠ 0 ∧ s.radio.tx ≠ none then s.radio.blindWaiting ++ [blindFrame status s]
      else s.radio.blindWaiting } } := by
  unfold sendBlind identitySet keyAsserted transmit
  by_cases identity : s.settings.cab ≠ 0 ∧ s.settings.fleet ≠ 0
  · obtain ⟨cab, fleet⟩ := identity
    cases tx : s.radio.tx <;> simp [cab, fleet, tx]
  · have none_goes : ∀ p : Prop, ¬(s.settings.cab ≠ 0 ∧ s.settings.fleet ≠ 0 ∧ p) := fun p all => identity ⟨all.1, all.2.1⟩
    simp only [decide_eq_true_eq, identity, if_false, none_goes]

end

/-! ## The beacon (R135, R136) -/

theorem beaconDue_of_phase {s : State} {n : Nat} {phase : BeaconPhase} (emergency : s.alarm.record.state ≠ .normal)
    (position : s.alarm.record.position = some (n, phase)) : beaconDue (decide (phase = .mark)) s = s.alarm.cycle := by
  refine if_pos ⟨decide_eq_true emergency, ?_, by simp [position]⟩
  unfold inMark
  rw [position]
  cases phase <;> rfl

theorem beaconDue_of_normal {s : State} (mark : Bool) (normal : s.alarm.record.state = .normal) : beaconDue mark s = none :=
  if_neg (by simp [inEmergency, normal])

/-- Settles O53: the two rows by the phase of the beacon, and an ALERT by the link and by the entry held. -/
theorem beaconRunsItsCycles : Obligations.BeaconRunsItsCycles := by
  refine ⟨fun s up => ?_, ?_⟩
  · have starts : exec .beaconCycleStart s = .next (sealDomain (takeCycleStart s)) := whenUp_up up
    have bursts : exec .beaconBurst s = .next (sealDomain (takeBurst s)) := whenUp_up up
    refine ⟨?_, ?_, fun normal => ⟨?_, ?_⟩⟩
    · rintro n c b emergency position cycle rfl
      have due : beaconDue false s = some c := (beaconDue_of_phase emergency position).trans cycle
      rw [starts, takeCycleStart, due]
      have held : decide (0 < s.alarm.record.hold) = decide (s.alarm.record.hold ≠ 0) := by simp [Nat.pos_iff_ne_zero]
      rw [← held]
      rfl
    · rintro n c w x emergency position cycle rfl rfl
      have due : beaconDue true s = some c := (beaconDue_of_phase emergency position).trans cycle
      rw [bursts, takeBurst, due]
      rfl
    · rw [starts, takeCycleStart, beaconDue_of_normal false normal]
    · rw [bursts, takeBurst, beaconDue_of_normal true normal]
  · rintro cancelled status s t frame rfl rfl
    refine ⟨fun up absent => ?_, fun up held => ?_, fun lost => ?_⟩
    · rw [makeAlert_of_link up, Radio.refreshReserved_of_absent absent]
      rfl
    · rw [makeAlert_of_link up, Radio.refreshReserved_of_held held]
      refine congrArg (fun queue => { s with radio := { s.radio with queue := queue } }) (List.map_congr_left fun e _ => ?_)
      rw [Entry.refresh_eq]
      by_cases kind : e.kind = .alert <;> simp [kind, contentKind]
    · rw [makeAlert_of_lost lost, sendBlind_eq, sendTime_eq]
      have left : (s.radio.removeOwned .alert).queue = s.radio.queue.filterMap (fun e =>
          if e.kind ≠ .alert then some e else if e.state = .sending then some { e with removed := true, deferred := none } else none) := by
        refine List.filterMap_congr fun e _ => ?_
        by_cases kind : e.kind = .alert <;> simp [kind]
      rw [← left]
      rfl

/-! ## The ways out of an emergency (R55, R131 to R134, R140) -/

/-- The release of the pin: a reported entry leaves, and an unreported one stays unpinned (R55). -/
theorem releasePin_eq (closed : List ClosedTrip) :
    releasePin closed = (closed.filter (fun c => !(c.pinned && c.reported))).map (fun c => { c with pinned := false }) := by
  induction closed with
  | nil => rfl
  | cons c rest ih =>
    unfold releasePin at ih ⊢
    rw [List.filterMap_cons, ih, List.filter_cons]
    obtain ⟨count, first, last, total, extras, distance, job, reported, pinned, unsent⟩ := c
    cases pinned <;> cases reported <;> simp

/-- The notice EMERGENCY (R142). -/
theorem noticeEmergency_eq (s : State) : noticeEmergency s = { s with
    meter := { s.meter with notices := s.meter.notices ||| 0x08 }
    terminal := if s.settings.alarmVisible then { s.terminal with notices := s.terminal.notices ||| 0x80 } else s.terminal } := rfl

section
variable {s : State}

theorem alarmCancel_of_normal (normal : s.alarm.record.state = .normal) : alarmCancel s = done .refusedState s := by
  simp [alarmCancel, normal]

/-- After the window, or once the alert is seen, it is too late (R132). -/
theorem alarmCancel_of_late (late : s.alarm.record.state = .seen ∨ (s.alarm.record.state = .alerting ∧ s.alarm.record.cancelOpen = false)) :
    alarmCancel s = done .tooLate s := by
  rcases late with seen | ⟨alerting, closed⟩
  · simp [alarmCancel, seen]
  · simp [alarmCancel, alerting, closed]

theorem alarmCancel_of_open (alerting : s.alarm.record.state = .alerting) (window : s.alarm.record.cancelOpen = true) :
    alarmCancel s = done .ok (makeAlert true 3 (returnToNormal s)) := by simp [alarmCancel, alerting, window]

/-- An alert is seen once (R133). -/
theorem takeAlertSeen_of_other (other : s.alarm.record.state ≠ .alerting) : takeAlertSeen s = s := if_neg other

/-- An alert seen: the set is SUSTAINED, and a mark of the URGENT set in progress is followed by its space (R133; log 17). -/
theorem takeAlertSeen_of_alerting (alerting : s.alarm.record.state = .alerting) : takeAlertSeen s = noticeEmergency { s with
    alarm := { s.alarm with
      record := { s.alarm.record with state := .seen, cancelOpen := false, beaconSet := .sustained }
      cancelDue := none
      cycle := if s.alarm.record.beaconSet = .urgent ∧ inMark s then
          s.alarm.cycle.map (fun c => { c with space := s.settings.sustained.space })
        else s.alarm.cycle } } := by
  simp only [takeAlertSeen, alerting, if_true, changeSet]
  cases s.alarm.record.beaconSet <;> simp [beaconSetting]

theorem takeStandDown_of_emergency (emergency : s.alarm.record.state ≠ .normal) :
    takeStandDown s = { returnToNormal s with radio := (returnToNormal s).radio.removeOwned .alert } := if_pos (decide_eq_true emergency)

theorem takeStandDown_of_normal (normal : s.alarm.record.state = .normal) : takeStandDown s = s := if_neg (by simp [inEmergency, normal])

end

/-- Settles O51: the window's end, the return to NORMAL, and the three commands by the state they find. -/
theorem emergenciesAreEnded : Obligations.EmergenciesAreEnded := by
  refine ⟨fun s up => ?_, ?_, fun s u takes hu => ?_, fun cab s => ⟨fun heard => ?_, fun heard => ?_⟩, fun a s other => ⟨fun heard => ?_, fun heard => ?_⟩⟩
  · have expires : exec .cancelWindowExpiry s = .next (sealDomain (takeCancelExpiry s)) := whenUp_up up
    refine ⟨fun due timer => ?_, fun stopped => ?_⟩
    · rw [expires, takeCancelExpiry, timer]
      rfl
    · rw [expires, takeCancelExpiry, stopped]
  · rintro u v rfl
    exact ⟨returnToNormal_frame u, rfl, rfl, releasePin_eq u.closed, rfl, rfl⟩
  · have replies := exec_of_takes (owner := alarmCancel) takes hu rfl
    refine ⟨fun normal => ?_, fun late => ?_, fun alerting window => ?_⟩
    · rw [replies, alarmCancel_of_normal normal]
      rfl
    · rw [replies, alarmCancel_of_late late]
      rfl
    · rw [replies, alarmCancel_of_open alerting window]
      rfl
  · have takes : exec (.alertSeen (.cab cab)) s = .next (sealDomain (takeAlertSeen s)) := receive_of_delivered heard rfl
    refine ⟨fun alerting => ?_, fun not_alerting => ?_⟩
    · rw [takes, takeAlertSeen_of_alerting alerting]
      refine ⟨_, rfl, ?_, rfl, rfl, rfl⟩
      intro f outside
      cases f <;> first | rfl | exact absurd (by decide) outside
    · rw [takes, takeAlertSeen_of_other not_alerting]
  · have takes : exec (.standDown (.cab cab)) s = .next (sealDomain (takeStandDown s)) := receive_of_delivered heard rfl
    refine ⟨fun emergency => ?_, fun normal => ?_⟩
    · rw [takes, takeStandDown_of_emergency emergency]
    · rw [takes, takeStandDown_of_normal normal]
  · exact receive_of_not_taken heard other
  · exact receive_of_not_taken heard other

end Sys2Proof.Machine
end

section
/-! PROOFS. A press (R125, R127 to R130): the beginning of an emergency, and its escalation. -/

namespace Sys2Proof.Machine

open Sys2Proof

/-! ## What the operations of a press touch -/

/-- A cut-off touches the Radio Link alone (R128). -/
theorem cutOff_eq (s : State) : cutOff s = { s with radio := (cutOff s).radio } := by
  have released : ∀ s, releaseKey s = { s with radio := (releaseKey s).radio } := fun s => by
    unfold releaseKey sendNextBlind
    split <;> rfl
  unfold cutOff
  split
  · exact released _
  · exact released _
  · rfl
  · rfl

/-- An ALERT touches the Radio Link alone (R138, R139). -/
theorem makeAlert_eq (cancelled : Bool) (status : Nat) (s : State) :
    makeAlert cancelled status s = { s with radio := (makeAlert cancelled status s).radio } := by
  by_cases link : s.radio.link = .lost
  · rw [makeAlert_of_lost link, sendBlind_eq]
  · rw [makeAlert_of_link link]

/-- An ALERT is no slot transmission (R139). -/
theorem makeAlert_slotTransmission (cancelled : Bool) (status : Nat) {s : State} (silent : slotTransmission s = false) :
    slotTransmission (makeAlert cancelled status s) = false := by
  rw [slotTransmission_eq_false] at silent ⊢
  by_cases link : s.radio.link = .lost
  · rw [makeAlert_of_lost link, sendBlind_eq]
    intro k hk
    simp only at hk
    split at hk
    · simpa using hk.symm
    · exact silent k hk
  · rw [makeAlert_of_link link, Radio.refreshReserved_rest]
    exact silent

/-- A mark that begins while no hold stands (R127, R130). -/
theorem beginMark_eq {s : State} (free : s.alarm.record.hold = 0) : beginMark s = { s with
    radio := (makeAlert false (emergencyCode s.alarm.record.state) (startCycle s.now s)).radio
    alarm := { s.alarm with
      cycle := some (newCycle s.now s).advance
      record := { s.alarm.record with position := some (newCycle s.now s).positionAfter, hold := 0 } } } := by
  have not_held : (newCycle s.now s).held = false := by simp [newCycle, free]
  unfold beginMark burst
  rw [not_held]
  have alert := makeAlert_eq false (emergencyCode s.alarm.record.state) (startCycle s.now s)
  simp only [Bool.false_eq_true, if_false]
  have state : (startCycle s.now s).alarm.record.state = s.alarm.record.state := rfl
  rw [state, alert]
  simp only [startCycle_alarm, free]
  rfl

/-- The levels that two lines reach at one instant (R123). -/
def reachLevels (l0 l1 : Option Level) (s : State) : State := { s with alarm := { s.alarm with
  line0 := { s.alarm.line0 with level := l0.or s.alarm.line0.level }
  line1 := { s.alarm.line1 with level := l1.or s.alarm.line1.level } } }

/-- The same with the latch cleared, as the press is taken (R125). -/
def pressTaken (l0 l1 : Option Level) (s : State) : State :=
  { reachLevels l0 l1 s with alarm := { (reachLevels l0 l1 s).alarm with latch := false } }

theorem pressTaken_frame (l0 l1 : Option Level) (s : State) : changesOnly [.alarm] s (pressTaken l0 l1 s) := by
  intro f other
  cases f <;> first | rfl | exact absurd (by decide) other

section
variable {l0 l1 : Option Level} {s : State}

theorem takeLevels_of_no_press
    (none_given : (linePresses s.settings.sens0 s.alarm.line0 l0 || linePresses s.settings.sens1 s.alarm.line1 l1) = false) :
    takeLevels l0 l1 s = reachLevels l0 l1 s := by
  unfold takeLevels
  simp only [none_given, Bool.false_eq_true, if_false]
  rfl

theorem takeLevels_of_press
    (given : (linePresses s.settings.sens0 s.alarm.line0 l0 || linePresses s.settings.sens1 s.alarm.line1 l1) = true) :
    takeLevels l0 l1 s =
      if s.alarm.record.state = .normal then beginEmergency (pressTaken l0 l1 s) else escalate (pressTaken l0 l1 s) := by
  unfold takeLevels
  simp only [given, if_true]
  rcases takePress_cases { reachLevels l0 l1 s with alarm := { (reachLevels l0 l1 s).alarm with latch := true } } with ⟨state, taken⟩ | ⟨state, taken⟩
  · rw [if_neg (show ¬s.alarm.record.state = .normal from state)]
    exact taken
  · rw [if_pos (show s.alarm.record.state = .normal from state)]
    exact taken

end

/-! ## The beginning of an emergency (R127 to R129) -/

/-- The state in which the first ALERT of an emergency is made. -/
def alertedState (s : State) : State := startCycle s.now (recheck (enterEmergency (cutOff s)))

/-- The Alarm Unit as an emergency begins (R127). -/
def begunAlarm (s : State) : AlarmUnit := { s.alarm with
  record := { s.alarm.record with
    state := .alerting, presses := 1, startTime := some s.tariff.clock, cancelOpen := true, beaconSet := .urgent
    position := some (1, if 1 < s.settings.urgent.count then .mark else .space), hold := 0
    pinIntent := s.alarm.record.pinIntent || s.trip.isSome }
  cancelDue := some (s.now + 20000)
  saved := some s.radio.levels
  cycle := some {
    count := s.settings.urgent.count, spacing := s.settings.urgent.spacing, space := s.settings.urgent.space, held := false
    nextBurst := if 1 < s.settings.urgent.count then 2 else 1
    due := s.now + (if 1 < s.settings.urgent.count then s.settings.urgent.spacing else s.settings.urgent.space) * 1000 } }

/-- The cycle of a mark that begins, after its first burst (R135). -/
theorem newCycle_advance {s : State} (free : s.alarm.record.hold = 0) (urgent : s.alarm.record.beaconSet = .urgent) :
    (newCycle s.now s).advance = {
      count := s.settings.urgent.count, spacing := s.settings.urgent.spacing, space := s.settings.urgent.space, held := false
      nextBurst := if 1 < s.settings.urgent.count then 2 else 1
      due := s.now + (if 1 < s.settings.urgent.count then s.settings.urgent.spacing else s.settings.urgent.space) * 1000 } := by
  unfold BeaconCycle.advance newCycle beaconSetting
  simp only [free, urgent]
  split <;> rfl

theorem newCycle_positionAfter {s : State} (urgent : s.alarm.record.beaconSet = .urgent) :
    (newCycle s.now s).positionAfter = (1, if 1 < s.settings.urgent.count then .mark else .space) := by
  simp only [BeaconCycle.positionAfter, newCycle, beaconSetting, urgent]

/-- In an emergency an offer is declined as UNAVAILABLE, or, while nobody is signed on, with the reason before it (R91). -/
theorem filterReason_of_emergency {s : State} (emergency : s.alarm.record.state ≠ .normal) (stackable : Bool) :
    filterReason s stackable = some (if s.duty.signedOn then .unavailable else .notSignedOn) := by
  unfold filterReason inEmergency
  cases s.duty.signedOn <;> simp [emergency]

/-- The re-check of an emergency declines every OFFERED entry (R94). -/
theorem recheckReason_of_emergency {s : State} (emergency : s.alarm.record.state ≠ .normal) (o : Offer) :
    recheckReason s o = if o.deadlineDue.isSome then some (if s.duty.signedOn then .unavailable else .notSignedOn) else none := by
  unfold recheckReason Offer.deadlineDue
  rw [entryReason_eq_filterReason, filterReason_of_emergency emergency]
  cases o.state <;> rfl

/-- The beginning of an emergency, by the state in which its first ALERT is made. -/
theorem beginEmergency_eq (s : State) : beginEmergency s = noticeEmergency { alertedState s with
    radio := (makeAlert false 1 (alertedState s)).radio
    alarm := begunAlarm s } := by
  unfold beginEmergency alertedState
  rw [cutOff_eq]
  rw [beginMark_eq (s := recheck (enterEmergency { s with radio := (cutOff s).radio })) rfl]
  rw [newCycle_advance rfl rfl, newCycle_positionAfter rfl]
  have levels : (cutOff s).radio.levels = s.radio.levels := by rw [(cutOff_radio s).1]
  congr 1
  unfold begunAlarm
  rw [← levels]
  rfl

/-! ## What a cut-off makes of the queue (R128) -/

/-- Without an entry on the air a cut-off leaves the queue as it was. -/
theorem cutOff_queue_of_no_entry {s : State}
    (none_sent : ∀ n e, s.radio.tx.map Transmission.kind = some (.entry n) → findEntry n s ≠ some e) :
    (cutOff s).radio.queue = s.radio.queue ∧ (cutOff s).radio.nextArrival = s.radio.nextArrival := by
  cases kind : s.radio.tx.map Transmission.kind with
  | none => simp [cutOff, kind]
  | some k =>
    cases k with
    | blind => simp [cutOff, kind]
    | reservationRequest =>
      simp only [cutOff, kind]
      rw [(releaseKey_radio s).1]
      exact ⟨rfl, rfl⟩
    | entry n =>
      obtain ⟨queue, next⟩ := (cutOff_radio s).2.2.2.2 n kind
      have absent : s.radio.queue.find? (fun e => decide (e.arrival = n)) = none := by
        cases found : s.radio.queue.find? (fun e => decide (e.arrival = n)) with
        | none => rfl
        | some e => exact absurd found (none_sent n e kind)
      rw [queue, next, Radio.settleEntry, absent]
      exact ⟨rfl, rfl⟩

theorem Radio.settleEntry_of_staying {n : Nat} {st : EntryState} {r : Radio} {e : Entry}
    (found : r.queue.find? (fun e => decide (e.arrival = n)) = some e) (stays : e.removed = false) :
    r.settleEntry n st = { r with queue := r.queue.map (fun x => if x.arrival = n then
      (if x.refreshed then { x with state := .ready, retry := 0, backoff := 0, seq := none, refreshed := false, carriesFailed := false }
       else { x with state := st, backoff := 0 }) else x) } := by simp [Radio.settleEntry, found, stays]

/-- An entry that its owner removed leaves the queue, with the creation that waited for its position (R154). -/
theorem Radio.settleEntry_of_removed {n : Nat} {st : EntryState} {r : Radio} {e : Entry}
    (found : r.queue.find? (fun e => decide (e.arrival = n)) = some e) (removed : e.removed = true) :
    (r.settleEntry n st).queue = r.queue.filter (fun x => decide (x.arrival ≠ n)) ++ (match e.deferred with
      | some c => [newEntry c r.nextArrival]
      | none => []) ∧ r.nextArrival ≤ (r.settleEntry n st).nextArrival := by
  unfold Radio.settleEntry
  rw [found]
  simp only [removed, if_true]
  cases e.deferred with
  | none => simp
  | some c => simp [Radio.create]

/-- A cut-off takes no arrival order back. -/
theorem cutOff_nextArrival_le (s : State) : s.radio.nextArrival ≤ (cutOff s).radio.nextArrival := by
  by_cases sent : ∃ n e, s.radio.tx.map Transmission.kind = some (.entry n) ∧ findEntry n s = some e
  · obtain ⟨n, e, kind, found⟩ := sent
    rw [((cutOff_radio s).2.2.2.2 n kind).2]
    cases removed : e.removed
    · rw [Radio.settleEntry_of_staying found removed]
    · exact (Radio.settleEntry_of_removed found removed).2
  · exact (cutOff_queue_of_no_entry fun n e kind found => sent ⟨n, e, kind, found⟩).2.ge

/-- The Radio Link in which the first ALERT is made: the cut-off's, with the DECLINEs of the re-check. -/
theorem alertedState_radio (s : State) : (alertedState s).radio =
    s.offers.entries.foldl (fun r o => match recheckReason (enterEmergency (cutOff s)) o with
      | some reason => r.queueDecline o.number reason
      | none => r) { (cutOff s).radio with levels := Levels.zero } := by
  unfold alertedState
  rw [cutOff_eq]
  rfl

/-- The contents of the DECLINEs that an emergency may queue, oldest offer first (R91, R94). -/
theorem emergency_declines {s : State} (emergency : s.alarm.record.state ≠ .normal) (os : List Offer) :
    os.filterMap (fun o => (recheckReason s o).map (fun reason => Content.decline o.number reason)) =
      (os.filter (fun o => o.deadlineDue.isSome)).map
        (fun o => .decline o.number (if s.duty.signedOn then .unavailable else .notSignedOn)) := by
  induction os with
  | nil => rfl
  | cons o os ih =>
    rw [List.filterMap_cons, recheckReason_of_emergency emergency, List.filter_cons, ih]
    by_cases offered : o.deadlineDue.isSome = true <;> simp [offered]

/-- What the beginning of an emergency does to the queue before its ALERT (R94, R128): the cut-off's queue, and new DECLINEs after it. -/
structure Begun (s : State) (reason : DeclineReason) (w : State) (added : List Entry) : Prop where
  queue : w.radio.queue = (cutOff s).radio.queue ++ added
  rest : w.radio = { (cutOff s).radio with levels := Levels.zero, queue := w.radio.queue, nextArrival := w.radio.nextArrival }
  contents : (added.map Entry.content).Sublist ((s.offers.entries.filter (fun o => o.deadlineDue.isSome)).map (fun o => .decline o.number reason))
  fresh : ∀ y ∈ added, y.state = .ready ∧ y.retry = 0 ∧ y.backoff = 0 ∧ y.seq = none ∧ s.radio.nextArrival ≤ y.arrival
  once : ∀ m r, (∃ y ∈ (cutOff s).radio.queue, y.content = .decline m r) → ∀ y ∈ added, y.content ≠ .decline m reason
  declined : ∀ o ∈ s.offers.entries, o.deadlineDue.isSome → w.radio.hasDecline o.number = true ∨ 8 ≤ w.radio.generalCount

theorem alertedState_begun (s : State) :
    ∃ added, Begun s (if s.duty.signedOn then .unavailable else .notSignedOn) (alertedState s) added := by
  have emergency : (enterEmergency (cutOff s)).alarm.record.state ≠ .normal := by simp
  have on : (enterEmergency (cutOff s)).duty.signedOn = s.duty.signedOn := by
    rw [cutOff_eq]
    rfl
  obtain ⟨-, added, queue, contents, fresh, once, declined⟩ :=
    queueDeclines (recheckReason (enterEmergency (cutOff s))) s.offers.entries _ _ (alertedState_radio s)
  rw [emergency_declines emergency, on] at contents
  refine ⟨added, queue, ?_, contents, fun y hy => ?_, ?_, fun o ho offered => ?_⟩
  · have kept := (recheck_grows (enterEmergency (cutOff s))).2.2
    have same : (alertedState s).radio = (recheck (enterEmergency (cutOff s))).radio := rfl
    rw [same]
    exact kept
  · obtain ⟨a, later, made⟩ := fresh y hy
    rw [made]
    exact ⟨rfl, rfl, rfl, rfl, (cutOff_nextArrival_le s).trans later⟩
  · rintro m r ⟨y, hy, content⟩
    have held : ({ (cutOff s).radio with levels := Levels.zero } : Radio).hasDecline m = true :=
      (Radio.hasDecline_iff _ _).2 ⟨y, hy, r, content⟩
    exact fun x hx => (once m held).2 x hx _
  · refine declined o ho ?_
    rw [recheckReason_of_emergency emergency, if_pos offered]
    rfl

/-- The entries after the re-check of an emergency (R94). -/
theorem rechecked_of_emergency {s : State} (emergency : s.alarm.record.state ≠ .normal) (o : Offer) : Offer.rechecked s o = match o.state with
    | .offered _ => { o with state := .declined (if s.duty.signedOn then .unavailable else .notSignedOn) }
    | _ => o := by
  unfold Offer.rechecked
  rw [filterReason_of_emergency emergency]

/-- The notices of an emergency that begins (R94, R142). -/
theorem begin_notices (notices : Byte) (offer visible : Bool) :
    (notices ||| (if offer then 0x01 else 0)) ||| (if visible then 0x80 else 0) =
      notices ||| (if visible then 0x80 else 0) ||| (if offer then 0x01 else 0) := by ac_rfl

theorem alertedState_offers (s : State) : (alertedState s).offers = { s.offers with entries := s.offers.entries.map (fun o => match o.state with
    | .offered _ => { o with state := .declined (if s.duty.signedOn then .unavailable else .notSignedOn) }
    | _ => o) } := by
  unfold alertedState
  rw [cutOff_eq]
  have entries := recheck_entries (enterEmergency { s with radio := (cutOff s).radio })
  have emergency : (enterEmergency { s with radio := (cutOff s).radio }).alarm.record.state ≠ .normal := by simp
  refine congrArg (fun entries => { s.offers with entries := entries }) (entries.trans (List.map_congr_left fun o _ => ?_))
  exact rechecked_of_emergency emergency o

theorem alertedState_terminal (s : State) : (alertedState s).terminal = { s.terminal with
    notices := s.terminal.notices ||| (if s.offers.entries.any (fun o => o.deadlineDue.isSome) then 0x01 else 0) } := by
  unfold alertedState
  rw [cutOff_eq]
  have emergency : (enterEmergency { s with radio := (cutOff s).radio }).alarm.record.state ≠ .normal := by simp
  have declined : ∀ o, (recheckReason (enterEmergency { s with radio := (cutOff s).radio }) o).isSome = o.deadlineDue.isSome := fun o => by
    rw [recheckReason_of_emergency emergency]
    split <;> simp_all
  refine Eq.trans ?_ (place_if (s.offers.entries.any (fun o => o.deadlineDue.isSome) = true) s.terminal 0x01)
  simp only [← declined]
  rfl

theorem alertedState_frame (s : State) : changesOnly [.alarm, .radio, .trip, .offers, .terminal] s (alertedState s) :=
  changesOnly_trans (changesOnly_trans (changesOnly_mono (cutOff_frame s) (by decide)) (changesOnly_mono (enterEmergency_frame _) (by decide)))
    (changesOnly_trans (changesOnly_mono (recheck_frame _) (by decide)) (changesOnly_mono (startCycle_frame _ _) (by decide)))

theorem alertedState_trip (s : State) : (alertedState s).trip = s.trip.map (fun t => { t with emergency := true }) := by
  have cut : (cutOff s).trip = s.trip := cutOff_frame s .trip (by decide)
  rw [← cut]
  rfl

theorem alertedState_record (s : State) : (alertedState s).alarm.record = { (begunAlarm s).record with position := some (1, .mark) } := by
  unfold alertedState
  rw [cutOff_eq]
  rfl

/-- What the queue keeps of the entry on the air (R128). -/
theorem cutOff_queue_of_entry {s : State} {n : Nat} {e : Entry} (sent : s.radio.tx.map Transmission.kind = some (.entry n))
    (found : findEntry n s = some e) :
    (e.removed = false → (cutOff s).radio.queue = s.radio.queue.map (fun y =>
      if y.arrival ≠ n then y
      else if y.refreshed then { y with state := .ready, retry := 0, backoff := 0, seq := none, refreshed := false, carriesFailed := false }
      else { y with state := .ready, backoff := 0 })) ∧
    (e.removed = true → (cutOff s).radio.queue = s.radio.queue.filter (fun y => y.arrival ≠ n) ++ (match e.deferred with
      | some c => [newEntry c s.radio.nextArrival]
      | none => [])) := by
  rw [((cutOff_radio s).2.2.2.2 n sent).1]
  refine ⟨fun stays => ?_, fun removed => (Radio.settleEntry_of_removed found removed).1⟩
  rw [Radio.settleEntry_of_staying found stays]
  refine List.map_congr_left fun y _ => ?_
  by_cases own : y.arrival = n <;> simp [own]

/-- The state with which an emergency begins (R127): the ALERT made, and EMERGENCY told. -/
def begunState (alarm : AlarmUnit) (w : State) : State :=
  noticeEmergency { w with radio := (makeAlert false 1 w).radio, alarm := alarm }

/-- The Radio Link with which an emergency begins. -/
theorem begunState_radio (alarm : AlarmUnit) (w : State) : (begunState alarm w).radio = (makeAlert false 1 w).radio := rfl

/-- The notices with which an emergency begins (R94, R142). -/
theorem begunState_terminal (alarm : AlarmUnit) {s w : State} {offer : Bool} (settings : w.settings = s.settings)
    (terminal : w.terminal = { s.terminal with notices := s.terminal.notices ||| (if offer then 0x01 else 0) }) :
    (begunState alarm w).terminal = { s.terminal with
      notices := s.terminal.notices ||| (if s.settings.alarmVisible then 0x80 else 0) ||| (if offer then 0x01 else 0) } := by
  have visible : (begunState alarm w).terminal = if s.settings.alarmVisible then w.terminal.place 0x80 else w.terminal := by
    rw [← settings]
    rfl
  rw [visible, place_if, terminal]
  simp only [begin_notices]

/-! ## A press in an emergency (R130) -/

/-- A press during a mark counts, and the mark runs on, followed by the URGENT space (R130; log 17). -/
theorem escalate_of_mark {s : State} (mark : inMark s = true) : escalate s = noticeEmergency { s with alarm := { s.alarm with
    record := { s.alarm.record with
      state := .alerting, presses := min (s.alarm.record.presses + 1) 15, beaconSet := .urgent, hold := 0 }
    cycle := if s.alarm.record.beaconSet = .urgent then s.alarm.cycle
      else s.alarm.cycle.map (fun c => { c with space := s.settings.urgent.space }) } } := by
  have counted : inMark (escalateRecord s) = true := mark
  unfold escalate
  rw [if_pos mark, changeSet]
  congr 1
  rw [counted]
  have beacon : (escalateRecord s).alarm.record.beaconSet = s.alarm.record.beaconSet := rfl
  rw [beacon]
  cases s.alarm.record.beaconSet <;> rfl

/-- The state in which a press in a space makes its ALERT (R130). -/
def repressedState (s : State) : State := startCycle s.now (changeSet .urgent (escalateRecord s))

/-- A press during a space begins an URGENT cycle at once (R130). -/
theorem escalate_of_space {s : State} (space : inMark s = false) : escalate s = noticeEmergency { s with
    radio := (makeAlert false 1 (repressedState s)).radio
    alarm := { s.alarm with
      record := { s.alarm.record with
        state := .alerting, presses := min (s.alarm.record.presses + 1) 15, beaconSet := .urgent, hold := 0
        position := some (1, if 1 < s.settings.urgent.count then .mark else .space) }
      cycle := some {
        count := s.settings.urgent.count, spacing := s.settings.urgent.spacing, space := s.settings.urgent.space, held := false
        nextBurst := if 1 < s.settings.urgent.count then 2 else 1
        due := s.now + (if 1 < s.settings.urgent.count then s.settings.urgent.spacing else s.settings.urgent.space) * 1000 } } } := by
  unfold escalate
  rw [if_neg (by simp [space])]
  rw [beginMark_eq (s := changeSet .urgent (escalateRecord s)) rfl, newCycle_advance rfl rfl, newCycle_positionAfter rfl]
  rfl

/-- Settles O49: a press by the emergency state it finds, and then by the beacon's phase. -/
theorem pressesRaiseTheEmergency : Obligations.PressesRaiseTheEmergency := by
  rintro l0 l1 s press x first reason up rfl rfl rfl rfl
  have runs : exec (.alarmLineLevel l0 l1) s = .next (sealDomain (takeLevels l0 l1 s)) := whenUp_up up
  rw [runs]
  refine ⟨fun none_given => ?_, fun given normal => ?_, fun given emergency => ?_⟩
  · rw [takeLevels_of_no_press none_given]
    rfl
  · have taken : takeLevels l0 l1 s = begunState (begunAlarm (pressTaken l0 l1 s)) (alertedState (pressTaken l0 l1 s)) := by
      rw [takeLevels_of_press given, if_pos normal, beginEmergency_eq]
      rfl
    have frame : changesOnly [.alarm, .radio, .trip, .offers, .terminal, .meter] s (sealDomain (takeLevels l0 l1 s)) :=
      changesOnly_trans (takeLevels_frame l0 l1 s) (changesOnly_mono (sealDomain_frame _) (by simp))
    obtain ⟨added, begun⟩ := alertedState_begun (pressTaken l0 l1 s)
    obtain ⟨cut, silent, quiet, ended, -⟩ := cutOff_radio (pressTaken l0 l1 s)
    have pressed : changesOnly [.alarm] s (pressTaken l0 l1 s) := pressTaken_frame l0 l1 s
    have before : changesOnly [.alarm, .radio, .trip, .offers, .terminal] s (alertedState (pressTaken l0 l1 s)) :=
      changesOnly_trans (changesOnly_mono pressed (by decide)) (alertedState_frame _)
    have trip : (alertedState (pressTaken l0 l1 s)).trip = s.trip.map (fun t => { t with emergency := true }) := alertedState_trip _
    have offers := alertedState_offers (pressTaken l0 l1 s)
    have terminal := alertedState_terminal (pressTaken l0 l1 s)
    have record := alertedState_record (pressTaken l0 l1 s)
    generalize alertedState (pressTaken l0 l1 s) = w at *
    have link : w.radio.link = s.radio.link := by
      rw [begun.rest, cut]
      rfl
    have alert := makeAlert_declines false 1 w
    rw [taken] at frame ⊢
    refine ⟨_, w, (cutOff (pressTaken l0 l1 s)).radio.queue, added, rfl, frame, rfl, ?_, ?_, trip, offers, ?_, ?_, ?_, ?_, before, rfl, record,
      rfl, ?_, ?_, ?_, begun.queue, ?_, ?_, begun.contents, begun.fresh, begun.once⟩
    · rw [sealDomain_radio, begunState_radio, makeAlert_levels, begun.rest]
    · refine makeAlert_slotTransmission false 1 (s := w) ?_
      unfold slotTransmission at quiet ⊢
      rw [begun.rest]
      exact quiet
    · intro o ho offered
      rw [sealDomain_radio, begunState_radio, alert.1, alert.2]
      exact begun.declined o ho offered
    · intro linked
      rw [sealDomain_radio, begunState_radio, makeAlert_of_link (link ▸ linked)]
      exact Radio.refreshReserved_holds (.alert false) _
    · have meter : w.meter = s.meter := before .meter (by decide)
      rw [← meter]
      rfl
    · exact begunState_terminal _ (before .settings (by decide)) terminal
    · rw [begun.rest, cut]
      rfl
    · intro still
      rw [begun.rest, silent still]
      exact ⟨rfl, rfl, rfl⟩
    · intro sending
      rw [begun.rest]
      exact ended sending
    · exact fun none_sent => (cutOff_queue_of_no_entry (s := pressTaken l0 l1 s) none_sent).1
    · exact fun n e sent found => cutOff_queue_of_entry (s := pressTaken l0 l1 s) sent found
  · have taken : takeLevels l0 l1 s = escalate (pressTaken l0 l1 s) := by
      rw [takeLevels_of_press given, if_neg emergency]
    have phase : inMark (pressTaken l0 l1 s) = inMark s := rfl
    have pressed : changesOnly [.alarm] s (pressTaken l0 l1 s) := pressTaken_frame l0 l1 s
    have frame : changesOnly [.alarm, .radio, .terminal, .meter] s (sealDomain (escalate (pressTaken l0 l1 s))) :=
      changesOnly_trans (changesOnly_trans (changesOnly_mono pressed (by decide)) (changesOnly_mono (escalate_frame _) (by decide)))
        (changesOnly_mono (sealDomain_frame _) (by simp))
    rw [taken]
    cases mark : inMark s
    · rw [escalate_of_space (phase.trans mark)] at frame ⊢
      refine ⟨_, rfl, frame, rfl, makeAlert_levels _ _ _, rfl, rfl, fun other => absurd other (by simp),
        fun _ => ⟨repressedState (pressTaken l0 l1 s), ?_, rfl, rfl⟩⟩
      exact changesOnly_trans pressed (changesOnly_trans (escalateRecord_frame _) (changesOnly_trans (changeSet_frame .urgent _)
        (startCycle_frame _ _)))
    · rw [escalate_of_mark (phase.trans mark)] at frame ⊢
      exact ⟨_, rfl, frame, rfl, rfl, rfl, rfl, fun _ => rfl, fun other => absurd other (by simp)⟩

end Sys2Proof.Machine
end

section
/-! PROOFS. The Radio Link (09): what is not heard (R143 to R145), the end of a backoff, the retry limit and the loss of the link (R149, R161,
R162), and the position and the levels (R152, R153). -/

namespace Sys2Proof.Machine

open Sys2Proof

/-! ## Frames that are not heard or not taken (R143 to R145) -/

/-- A downlink command is received, if its frame is heard and its fields are taken (R143 to R145), and a frame that spells it is delivered so. -/
theorem exec_of_downlink {c : Instr} {a : Address} (downlink : downlinkAddress c = some a) :
    ∃ (taken : Bool) (f : State → State), (∀ s, exec c s = whenUp (receive c taken f) s) ∧ ∀ s, deliver c s = receive c taken f s := by
  cases c <;> first | exact ⟨_, _, fun _ => rfl, fun _ => rfl⟩ | cases downlink

/-- A row whose fields are not taken changes nothing, heard or not (R145). -/
theorem whenUp_receive_of_not_taken {c : Instr} {taken : Bool} {f : State → State} {s : State} (up : s.power = .up) (not_taken : taken = false) :
    whenUp (receive c taken f) s = .next (sealDomain s) := by
  rw [whenUp_up up, receive, not_taken, Bool.and_false]
  rfl

/-- What keeps a frame from this cab (R143 to R145). -/
theorem hears_eq_false {c : Instr} {a : Address} {s : State} (downlink : downlinkAddress c = some a)
    (kept_off : s.settings.fleet = 0 ∨ s.radio.tx.isSome ∨ (∃ n, a = .cab n ∧ n ≠ s.settings.cab) ∨
      ∃ ended, s.radio.blankedUntil = some ended ∧
        s.now < ended + (downlinkBytes c * 8000 + s.settings.airRate - 1) / s.settings.airRate) : hears s c = false := by
  unfold hears
  rw [downlink]
  rcases kept_off with fleet | busy | ⟨n, rfl, other⟩ | ⟨ended, blanked, early⟩
  · simp [fleet]
  · simp [keyAsserted, busy]
  · simp [forThisCab, other]
  · have late : ¬ ended + airTime s.settings.airRate (downlinkBytes c) ≤ s.now := by
      rw [airTime, Nat.mul_assoc]
      exact Nat.not_le.2 early
    simp [clearOfBlanking, blanked, late]

/-- A payload spells a downlink command with the address of its header (R176). -/
theorem downlinkAddress_of_decodePayload {a : Address} {kind : Nat} {payload : List Byte} {c : Instr}
    (spelt : decodePayload a kind payload = some c) : downlinkAddress c = some a := by
  rcases kind with _ | _ | _ | _ | _ | _ | _ | _ | _ | _ | _ | _ | kind
  case succ.zero | succ.succ.zero =>
    obtain ⟨_, -, rfl⟩ := Option.map_eq_some_iff.1 spelt
    rfl
  case succ.succ.succ.succ.succ.succ.succ.zero =>
    rcases payload with _ | ⟨n1, _ | ⟨n2, _ | ⟨cls, _ | ⟨l, text⟩⟩⟩⟩
    case cons.cons.cons.cons =>
      obtain ⟨-, same⟩ := Option.ite_none_right_eq_some.1 spelt
      rw [← Option.some.inj same]
      rfl
    all_goals cases spelt
  all_goals
    rcases payload with _ | ⟨x, _ | ⟨y, _ | ⟨z, rest⟩⟩⟩ <;> cases spelt <;> rfl

/-- A frame that passes the Air Framer is a downlink command (R143, R176). -/
theorem downlinkAddress_of_airFramer {fleet : Nat} {frame : List Byte} {c : Instr} (passed : airFramer fleet frame = some c) :
    ∃ a, downlinkAddress c = some a := by
  unfold airFramer at passed
  split at passed
  · dsimp only at passed
    split at passed
    · split at passed
      · obtain ⟨a, -, spelt⟩ := Option.bind_eq_some_iff.1 passed
        exact ⟨a, downlinkAddress_of_decodePayload spelt⟩
      · cases passed
    · cases passed
  · cases passed

/-- A frame that passes the Air Framer and is not blanked is its command (R145; log 22). -/
theorem airFrame_passed {frame : List Byte} {c : Instr} {s : State} (up : s.power = .up)
    (passed : airFramer s.settings.fleet frame = some c) : exec (.airFrameDropped frame false) s = exec c s := by
  obtain ⟨a, downlink⟩ := downlinkAddress_of_airFramer passed
  obtain ⟨taken, f, received, delivered⟩ := exec_of_downlink downlink
  have runs : exec (.airFrameDropped frame false) s = .next (sealDomain (takeAirFrame frame false s)) := whenUp_up up
  rw [runs, received, whenUp_up up, ← delivered, takeAirFrame, passed]
  rfl

/-- Settles O57: a row not heard or not taken leaves the state as it was. -/
theorem unheardFramesAreDropped : Obligations.UnheardFramesAreDropped := by
  refine ⟨fun c a s up downlink kept_off => ?_, fun a n s up malformed => ?_, fun a o s up malformed => ?_,
    fun a n cls text s up malformed => ?_, fun frame s up => ⟨?_, fun dropped => ?_, fun c passed => airFrame_passed up passed⟩⟩
  · obtain ⟨taken, f, received, -⟩ := exec_of_downlink downlink
    rw [received, whenUp_up up, receive, hears_eq_false downlink kept_off, Bool.false_and]
    rfl
  · have not_taken : (toCab a && decide (n ≠ 0)) = false := by rcases malformed with other | zero <;> simp [*]
    exact ⟨whenUp_receive_of_not_taken up not_taken, whenUp_receive_of_not_taken up not_taken, whenUp_receive_of_not_taken up not_taken,
      whenUp_receive_of_not_taken up not_taken⟩
  · refine whenUp_receive_of_not_taken up ?_
    simp only [offerWellNumbered, within, Bool.and_eq_false_iff, decide_eq_false_iff_not]
    omega
  · refine whenUp_receive_of_not_taken up ?_
    rcases malformed with zero | cls_high | empty | long
    · simp [messageWellFormed, zero]
    · have unnamed : classOf cls = none := by
        unfold classOf
        split <;> first | omega | rfl
      simp [messageWellFormed, unnamed]
    · simp [messageWellFormed, within, empty]
    · simp [messageWellFormed, within, long]
  · exact (whenUp_up up).trans (by rw [takeAirFrame, if_pos rfl])
  · have runs : exec (.airFrameDropped frame false) s = .next (sealDomain (takeAirFrame frame false s)) := whenUp_up up
    cases passed : airFramer s.settings.fleet frame with
    | none =>
      rw [runs, takeAirFrame, passed]
      rfl
    | some c =>
      have busy : s.radio.tx.isSome := by simpa [passed] using dropped
      obtain ⟨a, downlink⟩ := downlinkAddress_of_airFramer passed
      obtain ⟨taken, f, received, -⟩ := exec_of_downlink downlink
      rw [airFrame_passed up passed, received, whenUp_up up, receive, hears_eq_false downlink (.inr (.inl busy)), Bool.false_and]
      rfl

/-! ## Position and levels (R152, R153) -/

section
variable {s : State}

theorem setPosition_of_range {la lo : Int} (range : -9000000 ≤ la ∧ la ≤ 9000000 ∧ -18000000 ≤ lo ∧ lo ≤ 18000000) :
    setPosition la lo s = done .ok { s with radio := { s.radio with fix := some ⟨la, lo, s.now⟩ } } := by
  obtain ⟨la_low, la_high, lo_low, lo_high⟩ := range
  exact if_pos (by simp [withinInt, la_low, la_high, lo_low, lo_high])

theorem setPosition_of_outside {la lo : Int} (outside : ¬(-9000000 ≤ la ∧ la ≤ 9000000 ∧ -18000000 ≤ lo ∧ lo ≤ 18000000)) :
    setPosition la lo s = done .badValue s := by
  refine if_neg fun inside => outside ?_
  simpa only [withinInt, Bool.and_eq_true, decide_eq_true_eq, and_assoc] using inside

/-- The kinds that have a level are named by 2 to 8 (R152). -/
theorem levelKindOf_outside {k : Nat} (outside : k < 2 ∨ 8 < k) : levelKindOf k = none := by
  unfold levelKindOf
  split <;> first | omega | rfl

theorem setPriority_of_unknown {k : Nat} (unknown : levelKindOf k = none) (v : Nat) : setPriority k v s = done .badValue s := by
  rw [setPriority, unknown]

theorem setPriority_of_kind {k : Nat} {kind : Kind} (named : levelKindOf k = some kind) (v : Nat) :
    setPriority k v s = done (if max (lowestLevel kind) (min v 3) = v then .ok else .held)
      (writeLevel kind (max (lowestLevel kind) (min v 3)) s) := by
  rw [setPriority, named]
  by_cases within : max (lowestLevel kind) (min v 3) = v <;> simp [clamp, heldIf, within]

/-- The lowest levels by the table of R152. -/
theorem lowestLevel_eq (kind : Kind) : lowestLevel kind = match kind with
    | .accept => 2
    | .fareTotal => 2
    | .jobEvent => 1
    | _ => 0 := by
  cases kind <;> exact rfl

theorem writeLevel_of_normal (normal : s.alarm.record.state = .normal) (kind : Kind) (level : Nat) :
    writeLevel kind level s = { s with radio := { s.radio with levels := s.radio.levels.set kind level } } :=
  if_neg (by simp [inEmergency, normal])

theorem writeLevel_of_emergency (emergency : s.alarm.record.state ≠ .normal) (kind : Kind) (level : Nat) :
    writeLevel kind level s = { s with alarm := { s.alarm with saved := s.alarm.saved.map (fun l => l.set kind level) } } :=
  if_pos (decide_eq_true emergency)

end

/-- Settles O58: the range of a position, and the bounds and the copy of a level. -/
theorem positionAndPrioritiesAreHeld : Obligations.PositionAndPrioritiesAreHeld := by
  refine ⟨fun la lo s u takes hu => ?_, fun k v s u takes hu => ?_⟩
  · have replies := exec_of_takes (owner := setPosition la lo) takes hu rfl
    refine ⟨fun range => ?_, fun outside => ?_⟩
    · rw [replies, setPosition_of_range range]
      rfl
    · rw [replies, setPosition_of_outside outside]
      rfl
  · have replies := exec_of_takes (owner := setPriority k v) takes hu rfl
    refine ⟨fun outside => ?_, ?_⟩
    · rw [replies, setPriority_of_unknown (levelKindOf_outside outside)]
      rfl
    · rintro kind least level r named low rfl rfl
      have lowest : least = lowestLevel kind := low.trans (lowestLevel_eq kind).symm
      subst lowest
      refine ⟨fun normal => ?_, fun emergency => ?_⟩
      · rw [replies, setPriority_of_kind named, writeLevel_of_normal normal]
        rfl
      · rw [replies, setPriority_of_kind named, writeLevel_of_emergency emergency]
        rfl

/-! ## Backoffs, retry limits and the link timer (R149, R161, R162) -/

section
variable {s : State} {n : Nat} {e : Entry}

theorem takeBackoffEnd_of_lost (lost : s.radio.link = .lost) : takeBackoffEnd n s = s := by
  unfold takeBackoffEnd
  split
  · exact if_neg fun ⟨_, _, held⟩ => held lost
  · rfl

theorem takeBackoffEnd_of_last (linked : s.radio.link ≠ .lost) (found : findEntry n s = some e) (backs_off : e.state = .backoff)
    (last : e.backoff ≤ 1) : takeBackoffEnd n s = changeEntry n Entry.lower s := by
  rw [takeBackoffEnd, found]
  exact if_pos ⟨backs_off, last, linked⟩

theorem takeBackoffEnd_of_absent (absent : findEntry n s = none) : takeBackoffEnd n s = s := by rw [takeBackoffEnd, absent]

theorem takeRetryLimit_of_absent (absent : findEntry n s = none) : takeRetryLimit n s = s := by rw [takeRetryLimit, absent]

/-- A count exceeds the limit of a kind that has one (R151, R162). -/
theorem overLimit_of_limit {k : Kind} {limit : Nat} (has : retryLimit k = some limit) (retry : Nat) :
    overLimit k retry = decide (limit < retry) := by rw [overLimit, has]

/-- The limit is exceeded, or is so with the send that stands unacknowledged (R162; log 21). -/
theorem limitReached_of_limit {limit : Nat} (has : retryLimit e.kind = some limit)
    (past : limit < e.retry ∨ (e.state = .awaitingAck ∧ limit ≤ e.retry)) : limitReached e = true := by
  rw [limitReached, overLimit_of_limit has, overLimit_of_limit has]
  rcases past with exceeded | ⟨awaiting, reached⟩
  · simp [exceeded]
  · simp [awaiting, Nat.lt_succ_of_le reached]

theorem takeRetryLimit_of_reached {limit : Nat} (found : findEntry n s = some e) (has : retryLimit e.kind = some limit)
    (past : limit < e.retry ∨ (e.state = .awaitingAck ∧ limit ≤ e.retry)) : takeRetryLimit n s = ownerFailed e (dropEntry n s) := by
  rw [takeRetryLimit, found]
  exact if_pos (limitReached_of_limit has past)

theorem takeLinkLost_of_stopped (stopped : s.radio.linkDue = none) : takeLinkLost s = s := by rw [takeLinkLost, stopped]

theorem takeLinkLost_of_running {due : Nat} (timer : s.radio.linkDue = some due) (silent : slotTransmission s = false) :
    takeLinkLost s = loseLink (reach due s) := by
  rw [takeLinkLost, timer]
  exact if_neg (by simp [silent])

end

/-- The link becomes LOST, with the notice LINK if it was not (R149). -/
theorem loseLink_radio (s : State) : (loseLink s).radio = { s.radio with
    link := .lost, linkDue := none, lastCycle := none, plan := none, grantedNow := false, grantedBefore := false
    queue := s.radio.queue.map (fun e => if e.state = .awaitingAck then { e with state := .ready, backoff := 0 } else e) } := setLink_radio _ _

theorem loseLink_terminal {s : State} (linked : s.radio.link ≠ .lost) :
    (loseLink s).terminal = { s.terminal with notices := s.terminal.notices ||| 0x20 } := by
  rw [loseLink, setLink, if_neg linked]
  rfl

/-- Settles O55: each row by the entry or the timer that it finds. -/
theorem backoffsRetriesAndLinkLoss : Obligations.BackoffsRetriesAndLinkLoss := by
  intro s up
  have backoff : ∀ n, exec (.backoffEnd n) s = .next (sealDomain (takeBackoffEnd n s)) := fun n => whenUp_up up
  have limits : ∀ n, exec (.retryLimitReached n) s = .next (sealDomain (takeRetryLimit n s)) := fun n => whenUp_up up
  have loses : exec .linkLost s = .next (sealDomain (takeLinkLost s)) := whenUp_up up
  refine ⟨fun lost n => ?_, fun linked n e found backs_off last => ?_, fun n e limit found has past => ?_, fun n absent => ⟨?_, ?_⟩,
    fun due timer silent => ?_, fun stopped => ?_⟩
  · rw [backoff, takeBackoffEnd_of_lost lost]
  · rw [backoff, takeBackoffEnd_of_last linked found backs_off last]
    rfl
  · rw [limits, takeRetryLimit_of_reached found has past]
  · rw [backoff, takeBackoffEnd_of_absent absent]
  · rw [limits, takeRetryLimit_of_absent absent]
  · rw [loses, takeLinkLost_of_running timer silent]
    refine ⟨_, rfl, ?_, ?_, ?_, fun linked => ?_⟩
    · have reached : changesOnly [.now, .radio, .terminal] s (reach due s) := changesOnly_mono (reach_frame due s) (by decide)
      exact changesOnly_trans (changesOnly_trans reached (changesOnly_mono (loseLink_frame _) (by decide)))
        (changesOnly_mono (sealDomain_frame _) (by simp))
    · exact loseLink_frame (reach due s) .now (by decide)
    · exact loseLink_radio (reach due s)
    · exact loseLink_terminal (s := reach due s) linked
  · rw [loses, takeLinkLost_of_stopped stopped]

end Sys2Proof.Machine
end

section
/-! PROOFS. The CYCLE HEAD (R146 to R150, R157, R161, R162): what a valid head settles with the owners of its entries, and the plan that it
opens. -/

namespace Sys2Proof.Machine

open Sys2Proof

/-! ## What settling leaves of the Radio Link -/

/-- Only the queue, its arrival orders and the fix differ between two Radio Links. -/
def Radio.SameLink (r r' : Radio) : Prop := r' = { r with queue := r'.queue, nextArrival := r'.nextArrival, fix := r'.fix }

theorem Radio.SameLink.refl (r : Radio) : r.SameLink r := rfl

theorem Radio.SameLink.trans {a b c : Radio} (first : a.SameLink b) (next : b.SameLink c) : a.SameLink c := by
  unfold Radio.SameLink at *
  rw [next, first]

/-- Owners reach the queue and the fix alone. -/
theorem OwnerAct.sameLink {r r' : Radio} (act : OwnerAct r r') : r.SameLink r' := by
  unfold Radio.SameLink
  cases act with
  | general => rfl
  | reserved c => rw [Radio.createReserved_rest]
  | refresh c => rw [Radio.refreshReserved_rest]
  | remove => rfl
  | receipt n st => rw [Radio.queueReceipt_rest]
  | position => rfl

theorem ByOwners.sameLink {s t : State} (acts : ByOwners s t) : s.radio.SameLink t.radio :=
  OwnerActs.keeps (fun _ _ act h => h.trans act.sameLink) acts (Radio.SameLink.refl _)

theorem dropEntry_sameLink (n : Nat) (s : State) : s.radio.SameLink (dropEntry n s).radio := rfl

theorem takeAck_sameLink (s : State) (ack : Nat × Nat) : s.radio.SameLink (takeAck s ack).radio := by
  unfold takeAck
  split
  · split
    · exact (dropEntry_sameLink _ s).trans (byOwners_ownerAcknowledged _ _).sameLink
    · exact .refl _
  · exact .refl _

theorem notAcknowledged_sameLink (s : State) (n : Nat) : s.radio.SameLink (notAcknowledged n s).radio := by
  unfold notAcknowledged
  split
  · split
    · unfold retryEntry
      split
      · rfl
      · split
        · exact (dropEntry_sameLink _ s).trans (byOwners_ownerFailed _ _).sameLink
        · rfl
    · exact .refl _
  · exact .refl _

theorem foldl_sameLink {α : Type} {f : State → α → State} (one : ∀ (s : State) a, s.radio.SameLink (f s a).radio) (l : List α) (s : State) :
    s.radio.SameLink (l.foldl f s).radio := by
  induction l generalizing s with
  | nil => exact .refl _
  | cons a l ih => exact (one s a).trans (ih _)

theorem settleAcks_sameLink (h : HeadFields) (s : State) : s.radio.SameLink (settleAcks h s).radio := by
  have lowered : s.radio.SameLink (lowerBackoffs s).radio := rfl
  exact lowered.trans ((foldl_sameLink takeAck_sameLink _ _).trans (foldl_sameLink notAcknowledged_sameLink _ _))

/-! ## What still awaits its acknowledgement (R162) -/

/-- Every entry that awaits its acknowledgement has an arrival order of a kind. -/
def Radio.AwaitsOnly (Q : Nat → Prop) (r : Radio) : Prop := ∀ e ∈ r.queue, e.state = .awaitingAck → Q e.arrival

section
variable {Q : Nat → Prop}

theorem Radio.AwaitsOnly.create {r : Radio} (only : r.AwaitsOnly Q) (c : Content) : (r.create c).AwaitsOnly Q := by
  intro e he awaits
  rcases List.mem_append.1 he with old | new
  · exact only e old awaits
  · rw [List.mem_singleton.1 new] at awaits
    cases awaits

/-- A queue changed entry by entry, none of which begins to await. -/
theorem Radio.AwaitsOnly.map {r : Radio} (only : r.AwaitsOnly Q) {f : Entry → Entry} (arrival : ∀ e, (f e).arrival = e.arrival)
    (state : ∀ e, (f e).state = .awaitingAck → e.state = .awaitingAck) {r' : Radio} (queue : r'.queue = r.queue.map f) : r'.AwaitsOnly Q := by
  intro y hy awaits
  rw [queue] at hy
  obtain ⟨e, he, rfl⟩ := List.mem_map.1 hy
  rw [arrival]
  exact only e he (state e awaits)

theorem Entry.refresh_arrival (c : Content) (e : Entry) : (e.refresh c).arrival = e.arrival := by
  unfold Entry.refresh
  split
  · rfl
  · split <;> rfl

theorem Entry.refresh_awaits (c : Content) (e : Entry) (awaits : (e.refresh c).state = .awaitingAck) : e.state = .awaitingAck := by
  unfold Entry.refresh at awaits
  split at awaits
  · exact awaits
  · split at awaits
    · exact awaits
    · cases awaits

/-- No act of an owner makes an entry that awaits its acknowledgement. -/
theorem OwnerAct.awaitsOnly {r r' : Radio} (act : OwnerAct r r') (only : r.AwaitsOnly Q) : r'.AwaitsOnly Q := by
  cases act with
  | general c => exact only.create c
  | reserved c =>
    unfold Radio.createReserved
    split
    · exact only.map (fun e => by split <;> rfl) (fun e => by split <;> exact id) rfl
    · exact only.create c
  | refresh c =>
    unfold Radio.refreshReserved
    split
    · refine only.map (fun e => ?_) (fun e => ?_) rfl
      · split
        · exact e.refresh_arrival c
        · rfl
      · split
        · exact e.refresh_awaits c
        · exact id
    · exact only.create c
  | remove k =>
    intro x hx awaits
    obtain ⟨e, he, kept⟩ := List.mem_filterMap.1 hx
    split at kept
    · split at kept
      · rw [← Option.some.inj kept] at awaits ⊢
        exact only e he awaits
      · cases kept
    · rw [← Option.some.inj kept] at awaits ⊢
      exact only e he awaits
  | receipt n st =>
    unfold Radio.queueReceipt
    split
    · refine only.map (fun e => ?_) (fun e => ?_) rfl
      · split
        · exact e.refresh_arrival _
        · rfl
      · split
        · exact e.refresh_awaits _
        · exact id
    · unfold Radio.createGeneral
      split
      · exact only.create _
      · exact only
  | position => exact only

theorem ByOwners.awaitsOnly {s t : State} (acts : ByOwners s t) (only : s.radio.AwaitsOnly Q) : t.radio.AwaitsOnly Q :=
  OwnerActs.keeps (fun _ _ act h => act.awaitsOnly h) acts only

/-- Of an entry that leaves, nothing awaits any more. -/
theorem dropEntry_awaitsOnly {n : Nat} {s : State} (only : s.radio.AwaitsOnly Q) : (dropEntry n s).radio.AwaitsOnly (fun m => Q m ∧ m ≠ n) := by
  intro e he awaits
  obtain ⟨held, other⟩ := List.mem_filter.1 he
  exact ⟨only e held awaits, of_decide_eq_true other⟩

theorem Radio.AwaitsOnly.mono {P : Nat → Prop} {r : Radio} (only : r.AwaitsOnly P) (le : ∀ n, P n → Q n) : r.AwaitsOnly Q :=
  fun e he awaits => le _ (only e he awaits)

theorem takeAck_awaitsOnly (ack : Nat × Nat) {s : State} (only : s.radio.AwaitsOnly Q) : (takeAck s ack).radio.AwaitsOnly Q := by
  unfold takeAck
  split
  · split
    · exact (byOwners_ownerAcknowledged _ _).awaitsOnly ((dropEntry_awaitsOnly only).mono fun _ h => h.1)
    · exact only
  · exact only

/-- An entry backs off in its place, and awaits no more. -/
theorem changeEntry_backOff_awaitsOnly {n b : Nat} {s : State} (only : s.radio.AwaitsOnly Q) :
    (changeEntry n (Entry.backOff b) s).radio.AwaitsOnly (fun m => Q m ∧ m ≠ n) := by
  intro y hy awaits
  obtain ⟨e, he, rfl⟩ := List.mem_map.1 hy
  by_cases own : e.arrival = n
  · rw [if_pos own] at awaits
    have backs_off : (e.backOff b).state ≠ .awaitingAck := by
      by_cases zero : b = 0 <;> simp [Entry.backOff, zero]
    exact absurd awaits backs_off
  · rw [if_neg own] at awaits ⊢
    exact ⟨only e he awaits, own⟩

/-- What was not acknowledged awaits no more (R162). -/
theorem notAcknowledged_awaitsOnly {n : Nat} {s : State} (law : RadioLawful s.radio) (only : s.radio.AwaitsOnly Q) :
    (notAcknowledged n s).radio.AwaitsOnly (fun m => Q m ∧ m ≠ n) := by
  unfold notAcknowledged
  split
  · rename_i e found
    obtain ⟨he, rfl⟩ := findEntry_some found
    split
    · unfold retryEntry
      split
      · exact changeEntry_backOff_awaitsOnly only
      · split
        · exact (byOwners_ownerFailed _ _).awaitsOnly (dropEntry_awaitsOnly only)
        · exact changeEntry_backOff_awaitsOnly (s := { s with draws := s.draws + 1 }) only
    · rename_i calm
      refine fun x hx awaits => ⟨only x hx awaits, fun same => calm ?_⟩
      rwa [← law.1.unique he hx same]
  · rename_i absent
    have none_held := List.find?_eq_none.1 absent
    exact fun x hx awaits => ⟨only x hx awaits, by simpa using none_held x hx⟩

/-- Passed through R162 in turn, none of the listed entries awaits any more. -/
theorem foldl_notAcknowledged_awaitsOnly (l : List Nat) {s : State} (law : RadioLawful s.radio) (only : s.radio.AwaitsOnly (· ∈ l)) :
    (l.foldl (fun x n => notAcknowledged n x) s).radio.AwaitsOnly (fun _ => False) := by
  induction l generalizing s with
  | nil => exact only.mono fun n h => by cases h
  | cons n l ih =>
    refine ih (notAcknowledged_lawful n law).1 ((notAcknowledged_awaitsOnly law only).mono fun m ⟨listed, other⟩ => ?_)
    exact (List.mem_cons.1 listed).resolve_left other

end

/-- Lowering leaves what awaits as it is. -/
theorem awaitingEntries_lowerBackoffs (s : State) : awaitingEntries (lowerBackoffs s) = awaitingEntries s := by
  have state : ∀ e : Entry, decide (e.lower.state = .awaitingAck) = decide (e.state = .awaitingAck) := fun e => by
    unfold Entry.lower
    split
    · split <;> simp [*]
    · rfl
  unfold awaitingEntries lowerBackoffs
  simp only [List.filter_map, List.map_map, Function.comp_def, state, (Entry.lower_kind _).2.1]

/-- After a valid head nothing awaits an acknowledgement (R161, R162). -/
theorem settleAcks_awaits_none (h : HeadFields) {s : State} (law : RadioLawful s.radio) :
    ∀ e ∈ (settleAcks h s).radio.queue, e.state ≠ .awaitingAck := by
  have lowered : RadioLawful (lowerBackoffs s).radio := by
    refine law.of_queue (law.1.map _ Entry.lower_kind (fun e he => ?_) law.1.held)
    obtain ⟨-, lawful, state⟩ := law.1.each e he
    obtain ⟨lawful', state'⟩ := Entry.lower_lawful lawful
    exact ⟨lawful', state'.trans state⟩
  have listed : (lowerBackoffs s).radio.AwaitsOnly (· ∈ awaitingEntries s) := by
    rw [← awaitingEntries_lowerBackoffs]
    exact fun e he awaits => List.mem_map_of_mem (List.mem_filter.2 ⟨he, decide_eq_true awaits⟩)
  have acknowledged : ∀ l u, RadioLawful u.radio → u.radio.AwaitsOnly (· ∈ awaitingEntries s) →
      RadioLawful (List.foldl takeAck u l).radio ∧ (List.foldl takeAck u l).radio.AwaitsOnly (· ∈ awaitingEntries s) := by
    intro l
    induction l with
    | nil => exact fun u law only => ⟨law, only⟩
    | cons a l ih => exact fun u law only => ih _ (takeAck_lawful a law).1 (takeAck_awaitsOnly a only)
  obtain ⟨acked, only⟩ := acknowledged (if missedHead h s then [] else h.acks) _ lowered listed
  exact fun e he awaits => foldl_notAcknowledged_awaitsOnly _ acked only e he awaits

/-! ## The plan and the link (R147 to R150, R157) -/

/-- The link state, the plan, the timer and the cycle that a head opens (R146, R149). -/
theorem openCycle_setLink (l : LinkState) (h : HeadFields) (x : State) : openCycle h (setLink l x) = { x with
    draws := x.draws + 1
    radio := { x.radio with
      link := l
      linkDue := some (x.now + 10000)
      plan := some {
        headEnd := x.now, slots := h.slots, ts := h.ts, tl := h.tl, grants := h.reservations, drawn := Config.draw x.draws % h.slots
        contentionDone := false, nextReserved := 0 }
      lastCycle := some h.cycle
      grantedBefore := x.radio.grantedNow
      grantedNow := h.reservations.contains x.settings.cab }
    terminal := if x.radio.link = l then x.terminal else { x.terminal with notices := x.terminal.notices ||| 0x20 } } := by
  by_cases same : x.radio.link = l
  · subst same
    rw [setLink, if_pos rfl, if_pos rfl]
    rfl
  · rw [setLink, if_neg same, if_neg same]
    rfl

/-- SLOT TOO SHORT when the frame of some entry fits neither kind of slot (R150; log 29). -/
theorem linkAtHead_eq (h : HeadFields) (x : State) : linkAtHead h x = if x.radio.queue.any (fun e =>
      decide (h.ts < x.settings.keyLead + (frameSize x e.kind * 8000 + x.settings.airRate - 1) / x.settings.airRate) &&
      decide (h.tl < x.settings.keyLead + (frameSize x e.kind * 8000 + x.settings.airRate - 1) / x.settings.airRate))
    then LinkState.slotTooShort else .up := by
  have fits : ∀ e : Entry, (!(fitsSlot x (frameSize x e.kind) h.ts || fitsSlot x (frameSize x e.kind) h.tl)) =
      (decide (h.ts < x.settings.keyLead + (frameSize x e.kind * 8000 + x.settings.airRate - 1) / x.settings.airRate) &&
       decide (h.tl < x.settings.keyLead + (frameSize x e.kind * 8000 + x.settings.airRate - 1) / x.settings.airRate)) := fun e => by
    rw [fitsSlot, fitsSlot, sendTime_eq, Bool.not_or, ← decide_not, ← decide_not]
    simp only [Nat.not_le]
  unfold linkAtHead
  simp only [fits]

theorem missedHead_iff (h : HeadFields) (s : State) :
    missedHead h s = true ↔ ∃ last, s.radio.lastCycle = some last ∧ h.cycle ≠ (last + 1) % 256 := by
  unfold missedHead
  cases s.radio.lastCycle <;> simp

/-- The slots of a valid head are 1 at least (R146). -/
theorem slots_pos_of_headValid {a : Address} {h : HeadFields} (valid : headValid a h = true) : 0 < h.slots := by
  simp only [headValid, within, Bool.and_eq_true, decide_eq_true_eq] at valid
  omega

/-! ## One entry of the list and its owner (R58, R75, R101, R121, R161) -/

section
variable {s : State} {cab q : Nat}

theorem takeAck_of_other_cab (other : cab ≠ s.settings.cab) : takeAck s (cab, q) = s := if_neg other

theorem takeAck_of_none (none_awaits : ∀ y ∈ s.radio.queue, y.state = .awaitingAck → y.seq ≠ some q) : takeAck s (cab, q) = s := by
  have absent : s.radio.queue.find? (fun e => decide (e.state = .awaitingAck) && decide (e.seq = some q)) = none :=
    List.find?_eq_none.2 fun y hy => by simpa using none_awaits y hy
  unfold takeAck
  rw [absent]
  split <;> rfl

theorem takeAck_of_only {e : Entry} (own : cab = s.settings.cab) (he : e ∈ s.radio.queue) (awaits : e.state = .awaitingAck)
    (seq : e.seq = some q) (only : ∀ y ∈ s.radio.queue, y.state = .awaitingAck → y.seq = some q → y = e) :
    takeAck s (cab, q) = ownerAcknowledged e (dropEntry e.arrival s) := by
  have found : s.radio.queue.find? (fun e => decide (e.state = .awaitingAck) && decide (e.seq = some q)) = some e := by
    cases h : s.radio.queue.find? (fun e => decide (e.state = .awaitingAck) && decide (e.seq = some q)) with
    | none => exact absurd (List.find?_eq_none.1 h e he) (by simp [awaits, seq])
    | some y =>
      have holds := List.find?_some h
      simp only [Bool.and_eq_true, decide_eq_true_eq] at holds
      rw [only y (List.mem_of_find?_eq_some h) holds.1 holds.2]
  unfold takeAck
  rw [if_pos own, found]

end

theorem statusAcknowledged_eq (carried : Bool) (d : State) : statusAcknowledged carried d =
    if carried = true ∧ d.duty.failedEvent.isSome then { d with
      duty := { d.duty with failedEvent := none }
      terminal := { d.terminal with notices := d.terminal.notices ||| 0x10 } }
    else d := by
  unfold statusAcknowledged
  simp only [Bool.and_eq_true]
  rfl

/-- What the owner of an acknowledged entry does once it has left the queue (R58, R75, R101, R121). -/
theorem ownerAcknowledged_eq (e : Entry) (d : State) : ownerAcknowledged e d = (match e.content with
    | .alert _ => d
    | .accept n => (match findOffer n d with
      | some o => (match o.state with
        | .accepting due => setOffer n (.awaitingAward due) d
        | _ => d)
      | none => d)
    | .jobEvent _ _ _ => queueWaiting d
    | .receipt _ _ => queueWaiting d
    | .decline _ _ => queueWaiting d
    | .fareTotal => fareTotalAcknowledged d
    | .status _ =>
      if e.carriesFailed = true ∧ d.duty.failedEvent.isSome then { d with
        duty := { d.duty with failedEvent := none }
        terminal := { d.terminal with notices := d.terminal.notices ||| 0x10 } }
      else d
    | .driverMessage n => queueWaiting (resolveOutbound n .delivered d)) := by
  obtain ⟨content, seq, retry, backoff, state, arrival, payload, removed, refreshed, deferred, carries⟩ := e
  cases content with
  | status reason => exact statusAcknowledged_eq carries d
  | _ => exact rfl

/-- The first unreported entry leaves the list, or stays as reported while pinned (R58). -/
theorem reportCarried_of_split {before after : List ClosedTrip} {c : ClosedTrip} (unreported : c.reported = false)
    (reported : ∀ x ∈ before, x.reported = true) :
    reportCarried (before ++ c :: after) = before ++ (if c.pinned then [{ c with reported := true }] else []) ++ after := by
  induction before with
  | nil =>
    simp only [List.nil_append, reportCarried, unreported, Bool.false_eq_true, if_false]
    split <;> rfl
  | cons x before ih =>
    have rest := ih fun y hy => reported y (List.mem_cons_of_mem _ hy)
    simp only [List.cons_append, reportCarried, reported x List.mem_cons_self, if_true, rest]

theorem carriedTrip_of_split {before after : List ClosedTrip} {c : ClosedTrip} (unreported : c.reported = false)
    (reported : ∀ x ∈ before, x.reported = true) : carriedTrip (before ++ c :: after) = some c := by
  rw [carriedTrip, List.find?_append, List.find?_eq_none.2 fun x hx => by simp [reported x hx], Option.none_or,
    List.find?_cons_of_pos (by simp [unreported])]

theorem ensureFareTotal_eq (s : State) : ensureFareTotal s = { s with
    radio := if s.closed.any (fun x => !x.reported) then s.radio.createReserved .fareTotal else s.radio } := by
  unfold ensureFareTotal
  split <;> rfl

theorem fareTotalAcknowledged_of_split {d : State} {before after : List ClosedTrip} {c : ClosedTrip} (list : d.closed = before ++ c :: after)
    (unreported : c.reported = false) (reported : ∀ x ∈ before, x.reported = true) : fareTotalAcknowledged d = ensureFareTotal { d with
      closed := before ++ (if c.pinned then [{ c with reported := true }] else []) ++ after
      totals := { d.totals with reported := min (d.totals.reported + c.total) 999999999 } } := by
  unfold fareTotalAcknowledged
  rw [list, carriedTrip_of_split unreported reported, reportCarried_of_split unreported reported]
  rfl

/-- What an outbound entry that is settled gives back and tells (R121, R122). -/
theorem resolveOutbound_of_found {n : Nat} {d : State} {o : Outbound} (found : findOutbound n d = some o) (st : OutboundState) :
    resolveOutbound n st d = { d with
      pool := releaseBlocks o.blocks d.pool
      messages := { d.messages with
        outbound := d.messages.outbound.map (fun x => if x.localNumber = n then x.resolve st else x) }
      terminal := { d.terminal with notices := d.terminal.notices ||| 0x08 } } := by
  rw [resolveOutbound, found]
  rfl

theorem queueWaiting_eq (d : State) : queueWaiting d = (match d.messages.outbound.find? (fun o => decide (o.state = .waiting)) with
    | none => d
    | some o =>
      if d.radio.generalCount < 8 then { d with
        radio := d.radio.create (.driverMessage o.localNumber)
        messages := { d.messages with
          outbound := d.messages.outbound.map (fun x => if x.localNumber = o.localNumber then { x with state := .queued } else x) } }
      else d) := by
  unfold queueWaiting
  cases d.messages.outbound.find? (fun o => decide (o.state = .waiting)) with
  | none => exact rfl
  | some o =>
    by_cases free : d.radio.generalCount < 8
    · have room := (Radio.generalFree_iff _).2 free
      exact (if_pos room).trans (if_pos free).symm
    · have no_room : ¬ d.radio.generalFree = true := fun h => free ((Radio.generalFree_iff _).1 h)
      exact (if_neg no_room).trans (if_neg free).symm

/-! ## One entry not acknowledged (R76, R121, R162) -/

section
variable {s : State} {n : Nat} {e : Entry}

theorem notAcknowledged_of_calm (found : findEntry n s = some e) (calm : e.state ≠ .awaitingAck) : notAcknowledged n s = s := by
  rw [notAcknowledged, found]
  exact if_neg calm

theorem notAcknowledged_of_awaiting (found : findEntry n s = some e) (awaits : e.state = .awaitingAck) :
    notAcknowledged n s = retryEntry e s := by
  rw [notAcknowledged, found]
  exact if_pos awaits

theorem retryEntry_of_alert (alert : e.kind = .alert) : retryEntry e s = changeEntry e.arrival (Entry.backOff 0) s := if_pos alert

theorem retryEntry_of_within (other : e.kind ≠ .alert) (within : ∀ limit, retryLimit e.kind = some limit → e.retry < limit) :
    retryEntry e s = changeEntry e.arrival (Entry.backOff (drawBackoff (e.retry + 1) s)) { s with draws := s.draws + 1 } := by
  have kept : ¬ overLimit e.kind (e.retry + 1) = true := by
    cases has : retryLimit e.kind with
    | none => simp [overLimit, has]
    | some limit =>
      have below := within limit has
      rw [overLimit_of_limit has, decide_eq_true_eq]
      omega
  rw [retryEntry, if_neg other, if_neg kept]

theorem retryEntry_of_limit {limit : Nat} (has : retryLimit e.kind = some limit) (reached : limit ≤ e.retry) :
    retryEntry e s = ownerFailed e (dropEntry e.arrival s) := by
  have other : e.kind ≠ .alert := fun alert => by
    rw [alert] at has
    cases has
  have past : overLimit e.kind (e.retry + 1) = true := by
    rw [overLimit_of_limit has, decide_eq_true_eq]
    omega
  rw [retryEntry, if_neg other, if_pos past]

/-- What the owner of a failed entry does once it has left the queue (R76, R121). -/
theorem ownerFailed_eq (e : Entry) (d : State) :
    ownerFailed e d = (match e.content with
      | .jobEvent k m _ => queueWaiting (refreshStatus .jobEventFailed { d with
          duty := { d.duty with failedEvent := some ⟨k, m⟩ }
          terminal := { d.terminal with notices := d.terminal.notices ||| 0x10 } })
      | .receipt _ _ => queueWaiting d
      | .decline _ _ => queueWaiting d
      | .driverMessage m => queueWaiting (resolveOutbound m .failed d)
      | _ => d) := by
  obtain ⟨content, seq, retry, backoff, state, arrival, payload, removed, refreshed, deferred, carries⟩ := e
  cases content <;> exact rfl

end

/-- Settles O54: the head whole, then each entry of its list, and each that was not acknowledged, by what is found. -/
theorem headsOpenTheCycle : Obligations.HeadsOpenTheCycle := by
  refine ⟨?_, fun a h s heard invalid => receive_of_not_taken heard invalid, fun s d cab q e => ⟨takeAck_of_other_cab, takeAck_of_none, ?_⟩,
    fun d before after c list unreported reported => ?_, fun n st d o found => ?_, queueWaiting_eq, ?_⟩
  · rintro a h s w x heard valid rfl rfl link rfl
    have settled : settleAcks h s = (awaitingEntries (lowerBackoffs s)).foldl (fun y n => notAcknowledged n y)
        ((if ∃ last, s.radio.lastCycle = some last ∧ h.cycle ≠ (last + 1) % 256 then [] else h.acks).foldl takeAck (lowerBackoffs s)) := by
      simp only [← missedHead_iff, awaitingEntries_lowerBackoffs]
      rfl
    have lowered : lowerBackoffs s = { s with radio := { s.radio with queue := s.radio.queue.map (fun e : Entry =>
      if e.state = .backoff then
        (if e.backoff ≤ 1 then { e with backoff := 0, state := .ready } else { e with backoff := e.backoff - 1 })
      else e) } } := rfl
    rw [awaitingEntries] at settled
    rw [← lowered, ← settled, ← linkAtHead_eq]
    have frame := settleAcks_frame h s
    have link := settleAcks_sameLink h s
    refine ⟨⟨Config.draw (settleAcks h s).draws % h.slots, Nat.mod_lt _ (slots_pos_of_headValid valid), ?_⟩, frame, ?_, fun law => ?_⟩
    · have runs : exec (.cycleHead a h) s = .next (sealDomain (takeHead h s)) := receive_of_delivered heard valid
      have now : (settleAcks h s).now = s.now := frame .now (by decide)
      have settings : (settleAcks h s).settings = s.settings := frame .settings (by decide)
      have was : (settleAcks h s).radio.link = s.radio.link := by rw [link]
      have granted : (settleAcks h s).radio.grantedNow = s.radio.grantedNow := by rw [link]
      rw [runs, takeHead, openCycle_setLink, now, settings, was, granted]
    · rw [link]
    · exact settleAcks_awaits_none h ((queueLaw_iff s).1 law)
  · rintro own he awaits seq only rfl
    exact (takeAck_of_only own he awaits seq only).trans (ownerAcknowledged_eq e _)
  · rw [fareTotalAcknowledged_of_split list unreported reported, ensureFareTotal_eq]
    refine ⟨_, rfl, ?_, rfl, rfl, rfl⟩
    intro f outside
    cases f <;> first | rfl | exact absurd (by decide) outside
  · rw [resolveOutbound_of_found found]
    refine ⟨_, rfl, ?_, rfl, ?_, ?_, rfl⟩
    · intro f outside
      cases f <;> first | rfl | exact absurd (by decide) outside
    · simp only [List.map_map, List.map_inj_left, Function.comp]
      intro x _
      split <;> rfl
    · simp only [List.map_map, List.map_inj_left, Function.comp]
      intro x _
      split <;> rfl
  · rintro n s d e found rfl
    have arrival := (findEntry_some found).2
    refine ⟨notAcknowledged_of_calm found, fun awaits alert => ?_, fun awaits within other => ?_, fun limit awaits has reached => ?_⟩
    · rw [notAcknowledged_of_awaiting found awaits, retryEntry_of_alert alert, arrival]
      rfl
    · refine ⟨drawBackoff (e.retry + 1) s, Nat.mod_lt _ (Nat.two_pow_pos _), ?_⟩
      rw [notAcknowledged_of_awaiting found awaits, retryEntry_of_within other within, arrival]
      rfl
    · rw [notAcknowledged_of_awaiting found awaits, retryEntry_of_limit has reached, arrival]
      exact ownerFailed_eq e _

end Sys2Proof.Machine
end

section
/-! PROOFS. The slots (R154 to R159) and the ends of transmissions (R59, R155, R160, R163). -/

namespace Sys2Proof.Machine

open Sys2Proof

/-! ## Which candidate goes first (R157, R158) -/

/-- The order of R157, one figure after the other. -/
theorem goesBefore_iff (l : Levels) (a b : Entry) : goesBefore l a b = true ↔
    standing l b.kind < standing l a.kind ∨ (standing l a.kind = standing l b.kind ∧
      (kindCode a.kind < kindCode b.kind ∨ (kindCode a.kind = kindCode b.kind ∧ a.arrival < b.arrival))) := by
  simp only [goesBefore, Bool.or_eq_true, Bool.and_eq_true, decide_eq_true_eq]

theorem firstOf_eq_none (l : Levels) (es : List Entry) : firstOf l es = none ↔ es = [] := by
  cases es with
  | nil => exact ⟨fun _ => rfl, fun _ => rfl⟩
  | cons x rest =>
    simp only [reduceCtorEq, iff_false]
    unfold firstOf
    split <;> simp

/-- The first is one that no other goes before (R157). -/
theorem firstOf_first {l : Levels} {es : List Entry} {e : Entry} (first : firstOf l es = some e) : ∀ x ∈ es, goesBefore l x e = false := by
  induction es generalizing e with
  | nil => cases first
  | cons y rest ih =>
    simp only [← Bool.not_eq_true, goesBefore_iff] at ih ⊢
    unfold firstOf at first
    split at first
    · rename_i empty
      obtain rfl := Option.some.inj first
      intro x hx
      rcases List.mem_cons.1 hx with rfl | later
      · omega
      · rw [(firstOf_eq_none l rest).1 empty] at later
        cases later
    · rename_i b best
      have others := ih best
      by_cases before : goesBefore l b y = true
      · rw [if_pos before] at first
        obtain rfl := Option.some.inj first
        rw [goesBefore_iff] at before
        intro x hx
        rcases List.mem_cons.1 hx with rfl | later
        · omega
        · exact others x later
      · rw [if_neg before] at first
        obtain rfl := Option.some.inj first
        rw [goesBefore_iff] at before
        intro x hx
        rcases List.mem_cons.1 hx with rfl | later
        · omega
        · have := others x later
          omega

/-- The codes tell the kinds apart. -/
theorem kindCode_injective {k m : Kind} (same : kindCode k = kindCode m) : k = m := by cases k <;> cases m <;> first | rfl | cases same

/-- The order of R157 as it is worded: an ALERT, the higher level, the lower rank, the older. -/
theorem goesBefore_iff_levels {l : Levels} (bound : ∀ k, k ≠ .alert → l.get k ≤ 3) (a b : Entry) : goesBefore l a b = true ↔
    (a.kind = .alert ∧ b.kind ≠ .alert) ∨
    (a.kind ≠ .alert ∧ b.kind ≠ .alert ∧ l.get b.kind < l.get a.kind) ∨
    (a.kind ≠ .alert ∧ b.kind ≠ .alert ∧ l.get a.kind = l.get b.kind ∧ kindCode a.kind < kindCode b.kind) ∨
    (a.kind = b.kind ∧ a.arrival < b.arrival) := by
  have codes : a.kind = b.kind ↔ kindCode a.kind = kindCode b.kind := ⟨congrArg kindCode, kindCode_injective⟩
  rw [goesBefore_iff, standing, standing]
  by_cases alert_a : a.kind = .alert <;> by_cases alert_b : b.kind = .alert
  · simp [alert_a, alert_b]
  · have below := bound _ alert_b
    rw [if_pos alert_a, if_neg alert_b]
    exact iff_of_true (.inl (Nat.lt_succ_of_le below)) (.inl ⟨alert_a, alert_b⟩)
  · have below := bound _ alert_a
    rw [if_neg alert_a, if_pos alert_b]
    simp only [alert_a, alert_b, false_and, ne_eq, not_true_eq_false, and_false, or_self, iff_false]
    omega
  · have same_levels : a.kind = b.kind → l.get a.kind = l.get b.kind := congrArg l.get
    simp only [alert_a, alert_b, if_false, codes, ne_eq, not_false_eq_true, true_and, false_and, false_or] at same_levels ⊢
    omega

/-! ## The candidates and the conditions of R159 -/

/-- An entry may go only in a reserved slot: a long one, or one of level 0 (R151). -/
theorem reservationOnly_iff (l : Levels) (k : Kind) :
    reservationOnly l k = true ↔ k = .fareTotal ∨ k = .driverMessage ∨ (k ≠ .alert ∧ l.get k = 0) := by
  cases k <;> simp [reservationOnly, longKind, standing]

theorem fitsSlot_iff (s : State) (bytes duration : Nat) : fitsSlot s bytes duration = true ↔
    s.settings.keyLead + (bytes * 8000 + s.settings.airRate - 1) / s.settings.airRate ≤ duration := by
  rw [fitsSlot, sendTime_eq, decide_eq_true_eq]

theorem mem_contentionCandidates (s : State) (duration : Nat) (e : Entry) : e ∈ contentionCandidates s duration ↔
    e ∈ s.radio.queue ∧ e.state = .ready ∧ e.kind ≠ .fareTotal ∧ e.kind ≠ .driverMessage ∧
      (e.kind = .alert ∨ s.radio.levels.get e.kind ≠ 0) ∧
      s.settings.keyLead + (frameSize s e.kind * 8000 + s.settings.airRate - 1) / s.settings.airRate ≤ duration := by
  have reserved := reservationOnly_iff s.radio.levels e.kind
  simp only [contentionCandidates, List.mem_filter, Bool.and_eq_true, decide_eq_true_eq, Bool.not_eq_true', ← Bool.not_eq_true, reserved,
    fitsSlot_iff]
  tauto

theorem mem_reservedCandidates (s : State) (duration : Nat) (e : Entry) : e ∈ reservedCandidates s duration ↔
    e ∈ s.radio.queue ∧ e.state = .ready ∧
      s.settings.keyLead + (frameSize s e.kind * 8000 + s.settings.airRate - 1) / s.settings.airRate ≤ duration := by
  simp only [reservedCandidates, List.mem_filter, Bool.and_eq_true, decide_eq_true_eq, fitsSlot_iff]

/-- Some entry counts as pending exactly when some entry waits for a reserved slot (R159). -/
theorem pendingCount_pos (s : State) : 1 ≤ pendingCount none s ↔ ∃ e ∈ s.radio.queue, waitsForReserved s e = true := by
  have counted : 0 < s.radio.queue.countP (fun e => waitsForReserved s e && decide (some e.arrival ≠ none)) ↔
      ∃ e ∈ s.radio.queue, waitsForReserved s e = true := by
    rw [List.countP_pos_iff]
    simp
  rw [← counted, pendingCount]
  omega

theorem waitsForReserved_iff {u : State} {p : Plan} (plan : u.radio.plan = some p) (e : Entry) : waitsForReserved u e = true ↔
    e.state = .ready ∧ (e.kind = .fareTotal ∨ e.kind = .driverMessage ∨ (e.kind ≠ .alert ∧ u.radio.levels.get e.kind = 0) ∨
      p.ts < u.settings.keyLead + (frameSize u e.kind * 8000 + u.settings.airRate - 1) / u.settings.airRate) := by
  have ts : currentTs u = p.ts := by rw [currentTs, plan]; rfl
  have long : longKind e.kind = true ↔ e.kind = .fareTotal ∨ e.kind = .driverMessage := by cases e.kind <;> simp [longKind]
  simp only [waitsForReserved, Bool.and_eq_true, Bool.or_eq_true, decide_eq_true_eq, Bool.not_eq_true', ← Bool.not_eq_true, ts,
    reservationOnly_iff, long, fitsSlot_iff]
  rw [Nat.not_le]
  tauto

theorem wantsReservation_iff {u : State} {p : Plan} (plan : u.radio.plan = some p) : wantsReservation p.ts u = true ↔
    (∃ e ∈ u.radio.queue, e.state = .ready ∧
      (e.kind = .fareTotal ∨ e.kind = .driverMessage ∨ (e.kind ≠ .alert ∧ u.radio.levels.get e.kind = 0) ∨
        p.ts < u.settings.keyLead + (frameSize u e.kind * 8000 + u.settings.airRate - 1) / u.settings.airRate)) ∧
    u.radio.grantedNow = false ∧ u.radio.grantedBefore = false ∧
    u.settings.keyLead + (18 * 8000 + u.settings.airRate - 1) / u.settings.airRate ≤ p.ts := by
  simp only [wantsReservation, Bool.and_eq_true, decide_eq_true_eq, Bool.not_eq_true', pendingCount_pos, waitsForReserved_iff plan, fitsSlot_iff,
    and_assoc]

/-! ## The slots (R157, R158, R160) -/

section
variable {s : State} {p : Plan}

theorem takeContention_of_past (plan : s.radio.plan = some p) (past : p.headEnd + p.drawn * p.ts < s.now ∨ p.contentionDone = true) :
    takeContention s = s := by
  rw [takeContention, plan]
  refine if_pos ?_
  rcases past with late | gone
  · exact .inr (.inr late)
  · exact .inl gone

theorem takeContention_of_due (plan : s.radio.plan = some p) (silent : s.radio.tx = none) (due : s.now ≤ p.headEnd + p.drawn * p.ts)
    (open_ : p.contentionDone = false) : takeContention s = sendContention p.ts { s with
      now := p.headEnd + p.drawn * p.ts
      radio := { s.radio with plan := some { p with contentionDone := true } } } := by
  have on_time : ¬ p.contentionStart < s.now := Nat.not_lt.2 due
  have instant : max s.now p.contentionStart = p.headEnd + p.drawn * p.ts := Nat.max_eq_right due
  rw [takeContention, plan]
  refine (if_neg (by simp [open_, silent, on_time])).trans ?_
  rw [setPlan, reach, instant]

theorem sendContention_of_unset {ts : Nat} (unset : identitySet s = false) : sendContention ts s = s := if_neg (by simp [unset])

theorem sendContention_of_first {ts : Nat} {e : Entry} (identity : identitySet s = true)
    (first : firstOf s.radio.levels (contentionCandidates s ts) = some e) : sendContention ts s = sendEntry e s := by
  rw [sendContention, if_pos identity, first]

theorem sendContention_of_none {ts : Nat} (identity : identitySet s = true) (no_candidate : contentionCandidates s ts = []) :
    sendContention ts s = if wantsReservation ts s then transmit .reservationRequest (requestFrame s) s else s := by
  rw [sendContention, if_pos identity, (firstOf_eq_none _ _).2 no_candidate]

theorem takeReserved_of_other {j : Nat} (plan : s.radio.plan = some p)
    (other : j < p.nextReserved ∨ p.grants[j]? ≠ some s.settings.cab ∨ p.headEnd + p.slots * p.ts + j * p.tl < s.now) : takeReserved j s = s := by
  rw [takeReserved, plan]
  refine if_neg fun ⟨granted, _, on_time⟩ => ?_
  simp only [reservedGranted, Bool.and_eq_true, decide_eq_true_eq] at granted
  rcases other with gone | not_ours | late
  · omega
  · exact not_ours granted.2
  · exact Nat.not_le.2 late on_time

theorem takeReserved_of_due {j : Nat} (plan : s.radio.plan = some p) (silent : s.radio.tx = none) (next : p.nextReserved ≤ j)
    (granted : p.grants[j]? = some s.settings.cab) (due : s.now ≤ p.headEnd + p.slots * p.ts + j * p.tl) :
    takeReserved j s = sendReserved p.tl { s with
      now := p.headEnd + p.slots * p.ts + j * p.tl
      radio := { s.radio with plan := some { p with contentionDone := true, nextReserved := j + 1 } } } := by
  have ours : reservedGranted j p s = true := by simp [reservedGranted, next, granted]
  have instant : max s.now (p.reservedStart j) = p.headEnd + p.slots * p.ts + j * p.tl := Nat.max_eq_right due
  rw [takeReserved, plan]
  refine (if_pos ⟨ours, by simp [silent], due⟩).trans ?_
  rw [setPlan, reach, instant]

theorem sendReserved_of_unset {tl : Nat} (unset : identitySet s = false) : sendReserved tl s = s := if_neg (by simp [unset])

theorem sendReserved_of_first {tl : Nat} {e : Entry} (identity : identitySet s = true)
    (first : firstOf s.radio.levels (reservedCandidates s tl) = some e) : sendReserved tl s = sendEntry e s := by
  rw [sendReserved, if_pos identity, first]

theorem sendReserved_of_none {tl : Nat} (identity : identitySet s = true) (no_candidate : reservedCandidates s tl = []) :
    sendReserved tl s = s := by
  rw [sendReserved, if_pos identity, (firstOf_eq_none _ _).2 no_candidate]

end

/-- An entry goes out (R155, R156, R160). -/
theorem sendEntry_eq (u : State) (e : Entry) : sendEntry e u = { u with radio := { u.radio with
    tx := some ⟨.entry e.arrival, uplinkFrame u (kindCode e.kind) (sequenceFor u.radio e) (frameFlags e u) (buildPayload e.content u), u.now,
      u.now + (u.settings.keyLead + ((uplinkFrame u (kindCode e.kind) (sequenceFor u.radio e) (frameFlags e u)
        (buildPayload e.content u)).length * 8000 + u.settings.airRate - 1) / u.settings.airRate)⟩
    queue := u.radio.queue.map (fun x => if x.arrival = e.arrival then { x with
        seq := some (sequenceFor u.radio e), payload := buildPayload e.content u, state := .sending
        carriesFailed := decide (e.kind = .status) && u.duty.failedEvent.isSome }
      else x)
    nextSeq := if e.seq.isSome then u.radio.nextSeq else (sequenceFor u.radio e + 1) % 16 } } := by
  rw [sendEntry, transmit, sendTime_eq]
  rfl

/-! ## The ends of transmissions (R59, R144, R155, R160, R163) -/

/-- KEY is released: 20 ms of blanking, and the blind frame asked for first goes out (R144, R163; log 27). -/
theorem releaseKey_eq (s : State) : releaseKey s = { s with radio := { s.radio with
    tx := s.radio.blindWaiting.head?.map (fun f => ⟨.blind, f, s.now,
      s.now + (s.settings.keyLead + (f.length * 8000 + s.settings.airRate - 1) / s.settings.airRate)⟩)
    blindWaiting := s.radio.blindWaiting.drop 1
    blankedUntil := some (s.now + 20) } } := by
  unfold releaseKey sendNextBlind
  split
  · rename_i waiting
    have waiting : s.radio.blindWaiting = [] := waiting
    simp [waiting]
  · rename_i f rest waiting
    have waiting : s.radio.blindWaiting = f :: rest := waiting
    rw [transmit, sendTime_eq]
    simp [waiting]

/-- What the end of a transmission settles before KEY is released (R59, R155). -/
def endSettled (t : Transmission) (s : State) : State :=
  match t.kind with
  | .entry n => completeEntry n (reach t.ends s)
  | .reservationRequest => reach t.ends s
  | .blind => reach t.ends s

/-- The two rows of an end of transmission, each at the transmission that is its own. -/
theorem exec_transmissionEnd {s : State} {t : Transmission} (up : s.power = .up) (on_air : s.radio.tx = some t) :
    exec (if t.kind = .blind then .blindTransmissionEnd else .transmissionEnd) s = .next (sealDomain (releaseKey (endSettled t s))) := by
  have slot : exec .transmissionEnd s = .next (sealDomain (takeTransmissionEnd s)) := whenUp_up up
  have blind : exec .blindTransmissionEnd s = .next (sealDomain (takeBlindEnd s)) := whenUp_up up
  rw [takeTransmissionEnd, on_air] at slot
  rw [takeBlindEnd, on_air] at blind
  rw [endSettled]
  cases kind : t.kind with
  | blind =>
    rw [if_pos rfl, blind]
    simp only [kind, if_true]
  | entry n =>
    rw [if_neg (by simp), slot]
    simp only [kind]
  | reservationRequest =>
    rw [if_neg (by simp), slot]
    simp only [kind]

/-- The first unreported entry is no longer unsent (R59). -/
theorem markSent_of_split {before after : List ClosedTrip} {c : ClosedTrip} (reported : ∀ x ∈ before, x.reported = true)
    (unreported : c.reported = false) : markSent (before ++ c :: after) = before ++ { c with unsent := false } :: after := by
  induction before with
  | nil => exact if_neg (by simp [unreported])
  | cons x before ih =>
    have rest := ih fun y hy => reported y (List.mem_cons_of_mem _ hy)
    rw [List.cons_append, markSent, if_pos (reported x List.mem_cons_self), rest, List.cons_append]

/-- An entry that stays in the queue is found in its place, changed. -/
theorem findEntry_of_map {n : Nat} {u v : State} {f : Entry → Entry} (queue : v.radio.queue = u.radio.queue.map f)
    (arrival : ∀ x, (f x).arrival = x.arrival) : findEntry n v = (findEntry n u).map f := by
  rw [findEntry, findEntry, queue, List.find?_map]
  simp only [Function.comp_def, arrival]

theorem endSettled_frame (t : Transmission) (s : State) : changesOnly [.now, .closed, .radio] s (endSettled t s) := by
  unfold endSettled
  split
  · intro f outside
    cases f <;> first | rfl | exact absurd (by decide) outside
  · exact changesOnly_mono (reach_frame t.ends s) (by decide)
  · exact changesOnly_mono (reach_frame t.ends s) (by decide)

theorem endSettled_now (t : Transmission) (s : State) : (endSettled t s).now = max s.now t.ends := by
  unfold endSettled
  split <;> rfl

theorem endSettled_blindWaiting (t : Transmission) (s : State) : (endSettled t s).radio.blindWaiting = s.radio.blindWaiting := by
  unfold endSettled
  split
  · rename_i n _
    rw [completeEntry, Radio.settleEntry_rest]
    rfl
  · rfl
  · rfl

theorem endSettled_of_entry {t : Transmission} {n : Nat} (entry : t.kind = .entry n) (s : State) :
    endSettled t s = completeEntry n (reach t.ends s) := by rw [endSettled, entry]

theorem endSettled_of_other {t : Transmission} (other : ∀ n, t.kind ≠ .entry n) (s : State) : endSettled t s = reach t.ends s := by
  unfold endSettled
  split
  · exact absurd ‹_› (other _)
  · rfl
  · rfl

/-- What a complete transmission leaves of its entry and of the trip it carried (R59, R154, R155). -/
theorem completeEntry_settles {n : Nat} {s : State} {e : Entry} (found : findEntry n s = some e) :
    (e.removed = false → findEntry n (completeEntry n s) = some (if e.refreshed then { e with
        state := .ready, retry := 0, backoff := 0, seq := none, refreshed := false, carriesFailed := false }
      else { e with state := .awaitingAck, backoff := 0 })) ∧
    (e.removed = true → (completeEntry n s).radio.queue = s.radio.queue.filter (fun x => x.arrival ≠ n) ++
      (match e.deferred with
      | some c => [newEntry c s.radio.nextArrival]
      | none => [])) ∧
    (e.kind ≠ .fareTotal → (completeEntry n s).closed = s.closed) ∧
    (e.kind = .fareTotal → (completeEntry n s).closed = markSent s.closed) := by
  have carried : sendsFareTotal n s = decide (e.kind = .fareTotal) := by rw [sendsFareTotal, found]; rfl
  refine ⟨fun stays => ?_, fun removed => ?_, fun other => ?_, fun fare => ?_⟩
  · have queue := congrArg Radio.queue (Radio.settleEntry_of_staying (st := .awaitingAck) found stays)
    rw [findEntry_of_map (u := s) (v := completeEntry n s) queue fun x => by split <;> (try split) <;> rfl, found, Option.map_some,
      if_pos (findEntry_some found).2]
  · exact (Radio.settleEntry_of_removed found removed).1
  · rw [completeEntry, carried, decide_eq_false other]
    rfl
  · rw [completeEntry, carried, decide_eq_true fare]
    rfl

/-- Settles O56: the slots by the plan and the candidates, the order and the conditions by their figures, and each end of a transmission. -/
theorem slotsSendTheFirstCandidate : Obligations.SlotsSendTheFirstCandidate := by
  refine ⟨fun s u p up plan silent => ⟨?_, fun past => ?_, fun j => ⟨?_, fun other => ?_⟩⟩,
    fun s duration e => ⟨mem_contentionCandidates s duration e, mem_reservedCandidates s duration e⟩,
    fun l es => ⟨firstOf_eq_none l es, fun e first => ⟨firstOf_mem l es e first, firstOf_first first⟩⟩, ?_,
    fun u p plan => wantsReservation_iff plan, ?_, fun s t up on_air => ?_⟩
  · intro due open_ hu
    have slot : exec .contentionSlot s = .next (sealDomain (takeContention s)) := whenUp_up up
    have same : identitySet u = identitySet s := by rw [hu]; rfl
    rw [slot, takeContention_of_due plan silent due open_, ← hu, ← same]
    refine ⟨fun unset => ?_, fun identity => ⟨fun e first => ?_, fun no_candidate wants => ?_, fun no_candidate content => ?_⟩⟩
    · rw [sendContention_of_unset unset]
    · rw [sendContention_of_first identity first]
    · rw [sendContention_of_none identity no_candidate, if_pos wants]
    · rw [sendContention_of_none identity no_candidate, if_neg (by simp [content])]
  · have slot : exec .contentionSlot s = .next (sealDomain (takeContention s)) := whenUp_up up
    rw [slot, takeContention_of_past plan past]
  · intro next granted due hu
    have slot : exec (.reservedSlot j) s = .next (sealDomain (takeReserved j s)) := whenUp_up up
    have same : identitySet u = identitySet s := by rw [hu]; rfl
    rw [slot, takeReserved_of_due plan silent next granted due, ← hu, ← same]
    refine ⟨fun unset => ?_, fun identity => ⟨fun e first => ?_, fun no_candidate => ?_⟩⟩
    · rw [sendReserved_of_unset unset]
    · rw [sendReserved_of_first identity first]
    · rw [sendReserved_of_none identity no_candidate]
  · have slot : exec (.reservedSlot j) s = .next (sealDomain (takeReserved j s)) := whenUp_up up
    rw [slot, takeReserved_of_other plan other]
  · rintro l a b rank bound rfl
    exact goesBefore_iff_levels bound a b
  · rintro u e q frame he rfl rfl
    refine ⟨sendEntry_eq u e, fun own has => ?_, fun fresh room next => ?_⟩
    · rw [sequenceFor, has]
      rfl
    · obtain ⟨k, small, first, free, taken⟩ := freeSeq_first u.radio.queue u.radio.nextSeq (by omega) next
      have sequence : sequenceFor u.radio e = (u.radio.nextSeq + k) % 16 := by rw [sequenceFor, fresh, ← first]; rfl
      exact ⟨k, small, sequence, fun x hx => sequence ▸ free x hx, taken⟩
  · have settled := endSettled_frame t s
    have now := endSettled_now t s
    have waiting := endSettled_blindWaiting t s
    have settings : (endSettled t s).settings = s.settings := settled .settings (by decide)
    refine ⟨_, exec_transmissionEnd up on_air, ?_, ?_, ?_, ?_, ?_, fun n e entry found => ?_, fun other => ?_⟩
    · exact changesOnly_trans (changesOnly_trans settled (changesOnly_mono (releaseKey_frame _) (by decide)))
        (changesOnly_mono (sealDomain_frame _) (by simp))
    · rw [releaseKey_eq]
      exact now
    · rw [releaseKey_eq, ← now]
      rfl
    · rw [releaseKey_eq, ← waiting]
      rfl
    · rw [releaseKey_eq, ← waiting, ← settings]
      rfl
    · obtain ⟨stays, leaves, other, fare⟩ := completeEntry_settles (s := reach t.ends s) found
      rw [endSettled_of_entry entry, releaseKey_eq]
      refine ⟨stays, leaves, other, fun kind before c after list reported unreported => ?_⟩
      rw [← markSent_of_split reported unreported, ← list]
      exact fare kind
    · rw [endSettled_of_other other, releaseKey_eq]
      exact ⟨rfl, rfl⟩

end Sys2Proof.Machine
end

section
/-! PROOFS. The two ports (10) and what their commands write: how a command reaches its owner, request frames, replies and notices, the reads,
and the settings, the extras, the sign-on and the STATUS report. -/

namespace Sys2Proof.Machine

open Sys2Proof

/-! ## How a command reaches its owner (R77, R165, R166) -/

section
variable {s : State}

theorem arrived_of_handed {p : Port} {c : Instr} (handed : (p, .command c) ∈ s.handed) :
    arrived p c s = { s with handed := s.handed.erase (p, .command c) } := if_pos handed

theorem arrived_of_frame {p : Port} {c : Instr} (received : (p, .command c) ∉ s.handed) : arrived p c s = frameReceived p s := if_neg received

theorem terminalSign_of_off (off : s.duty.signedOn = false) : terminalSign s = s := if_neg (by simp [off])

theorem terminalSign_of_tracked (on : s.duty.signedOn = true) (tracked : s.duty.presence ≠ .absent) :
    terminalSign s = { s with duty := { s.duty with presenceDue := some (s.now + 30000) } } := by
  rw [terminalSign, if_pos on, if_neg tracked]

theorem terminalSign_of_absent (on : s.duty.signedOn = true) (absent : s.duty.presence = .absent) :
    terminalSign s = dutyChanged .presence { s with duty := { s.duty with presence := .present, presenceDue := some (s.now + 30000) } } := by
  rw [terminalSign, if_pos on, if_pos absent]

end

/-- Settles O21: by whether the command was handed on, and by the sign that its frame is. -/
theorem terminalFramesAreSignsOfTheTerminal : Obligations.TerminalFramesAreSignsOfTheTerminal := by
  rintro p c s w rfl
  refine ⟨arrived_of_handed, arrived_of_frame, fun received off => ?_, fun received on tracked => ?_, fun received on absent => ?_⟩
  · exact (arrived_of_frame received).trans (terminalSign_of_off (s := driveIdle .terminal s) off)
  · exact (arrived_of_frame received).trans (terminalSign_of_tracked (s := driveIdle .terminal s) on tracked)
  · exact (arrived_of_frame received).trans (terminalSign_of_absent (s := driveIdle .terminal s) on absent)

/-! ## Request frames (R165 to R167, R173) -/

/-- A sign of the terminal leaves the reply buffers as they are. -/
theorem signOf_buffer (p q : Port) (s : State) : (portState q (signOf p s)).buffer = (portState q s).buffer := by
  have kept : (portState q (terminalSign s)).buffer = (portState q s).buffer := by
    cases q with
    | meter => exact congrArg PortState.buffer (terminalSign_frame s .meter (by decide))
    | terminal =>
      unfold terminalSign
      split
      · split
        · exact Eq.trans (congrArg PortState.buffer (dutyChanged_terminal .presence _)) rfl
        · rfl
      · rfl
  cases p with
  | meter => rfl
  | terminal => exact kept

theorem frameReceived_buffer (p : Port) (s : State) : (portState p (frameReceived p s)).buffer = (portState p s).buffer := by
  rw [frameReceived, signOf_buffer]
  cases p <;> rfl

theorem bufferPending_frameReceived (p : Port) (s : State) : bufferPending p (frameReceived p s) = bufferPending p s := by
  rw [bufferPending, bufferPending, frameReceived_buffer]

section
variable {p : Port} {code len : Byte} {rest : List Byte} {s : State}

/-- A command request cut short is discarded, the idle byte driven all the same (R165). -/
theorem takeTransaction_of_short (other : code ≠ 0x01 ∧ code ≠ 0x02) (short : rest.length < len.toNat) :
    takeTransaction p (code :: len :: rest) s = driveIdle p s := by
  rw [takeTransaction, if_neg other.1, if_neg other.2, if_pos short]

theorem takeTransaction_of_complete (other : code ≠ 0x01 ∧ code ≠ 0x02) (complete : len.toNat ≤ rest.length) :
    takeTransaction p (code :: len :: rest) s = takeFrame p code (rest.take len.toNat) (frameReceived p s) := by
  rw [takeTransaction, if_neg other.1, if_neg other.2, if_neg (Nat.not_lt.2 complete)]

/-- A frame received complete by the state of the buffer and the checks (R166). -/
theorem takeFrame_eq (args : List Byte) (u : State) : takeFrame p code args u =
    if bufferPending p u then u
    else match checkRequest p code.toNat args with
      | .badFrame => setBuffer p (.held code.toNat .badFrame []) u
      | .notPermitted => setBuffer p (.held code.toNat .notPermitted []) u
      | .badItem => setBuffer p (.pending code.toNat) { u with handed := u.handed ++ [(p, .unknownItem)] }
      | .take i => setBuffer p (.pending code.toNat) { u with handed := u.handed ++ [(p, .command i)] } := by
  unfold takeFrame
  split
  · rfl
  · cases checkRequest p code.toNat args <;> exact rfl

/-- A request that was handed on comes before the part's own events (log 2). -/
theorem step_of_handed {q : Port} {h : Handed} {others : List (Port × Handed)} (up : s.power = .up) (empty : s.pending = [])
    (handed : s.handed = (q, h) :: others) : step s = match h with
      | .command i => exec i s
      | .unknownItem => whenUp takeUnknownItem s := by
  have own : ownEvent s = some h := by rw [ownEvent, up, handed]
  rw [step, empty, own]
  cases h <;> exact rfl

end

/-- Settles O22: the transaction by its first bytes and its length, and what a step makes of the requests handed on. -/
theorem requestFramesAreCheckedAndHandedOn : Obligations.RequestFramesAreCheckedAndHandedOn := by
  rintro p code len rest args s w u up rfl rfl rfl
  have runs : ∀ bytes, exec (.requestFrameReceived p bytes) s = .next (sealDomain (takeTransaction p bytes s)) := fun _ => whenUp_up up
  refine ⟨fun reply => ?_, fun notices => ?_, fun not_reply not_notices short => ?_, fun not_reply not_notices => ?_, fun immediate => ?_, runs [],
    fun not_reply not_notices complete => ?_, fun q i others empty handed => step_of_handed up empty handed, fun q others empty handed => ?_⟩
  · rw [runs, takeTransaction, if_pos reply]
    exact (whenUp_up up).symm
  · rw [runs, takeTransaction, if_neg (by simp [notices]), if_pos notices]
    exact (whenUp_up up).symm
  · rw [runs, takeTransaction_of_short ⟨not_reply, not_notices⟩ short]
    rfl
  · rw [runs, takeTransaction, if_neg fun immediate => immediate.elim not_reply not_notices]
    rfl
  · rw [runs, takeTransaction, if_pos immediate]
  · rw [runs, takeTransaction_of_complete ⟨not_reply, not_notices⟩ complete, takeFrame_eq, bufferPending_frameReceived]
    rfl
  · rw [step_of_handed up empty handed]
    refine (whenUp_up up).trans ?_
    rw [takeUnknownItem, handed]
    rfl

/-! ## Replies and notices (R165, R167, R170) -/

/-- The kinds of the Meter Port are the six lowest (R177). -/
theorem meterKinds_iff (e : Byte) : e &&& meterKinds = e ↔ e.toNat < 64 := by
  have masked : (e &&& meterKinds).toNat = e.toNat % 64 := by
    rw [BitVec.toNat_and]
    exact Nat.and_two_pow_sub_one_eq_mod e.toNat 6
  rw [← BitVec.toNat_inj, masked]
  omega

theorem terminalKinds_and (e : Byte) : e &&& terminalKinds = e := BitVec.and_allOnes

/-- The numbers of the notice kinds of a port (R169, R177). -/
def portKindsEnd : Port → Nat
  | .meter => 64
  | .terminal => 256

theorem kinds_of_port (p : Port) (e : Nat) :
    (fitsBytes 1 e && decide (BitVec.ofNat 8 e &&& portKinds p = BitVec.ofNat 8 e)) = decide (e < portKindsEnd p) := by
  have byte : fitsBytes 1 e = true ↔ e < 256 := decide_eq_true_iff
  rw [Bool.eq_iff_iff, Bool.and_eq_true, byte, decide_eq_true_eq, decide_eq_true_eq]
  cases p with
  | meter =>
    have kinds := meterKinds_iff (BitVec.ofNat 8 e)
    rw [BitVec.toNat_ofNat] at kinds
    refine (and_congr_right fun _ => kinds).trans ?_
    change e < 256 ∧ e % 256 < 64 ↔ e < 64
    omega
  | terminal => exact and_iff_left (terminalKinds_and _)

theorem setNotices_of_kinds {p : Port} {e : Nat} {s : State} (kinds : e < portKindsEnd p) :
    setNotices p e s = done .ok (setPort p { portState p s with enabled := BitVec.ofNat 8 e } s) := by
  rw [setNotices, kinds_of_port, if_pos (decide_eq_true kinds)]

theorem setNotices_of_other {p : Port} {e : Nat} {s : State} (other : portKindsEnd p ≤ e) : setNotices p e s = done .badValue s := by
  rw [setNotices, kinds_of_port, if_neg (by simpa using other)]

/-- The notice set is fetched with the sign of the terminal before or after (log 12). -/
theorem takeReadNotices_cases (p : Port) (s : State) :
    takeReadNotices p s = fetchNotices p (signOf p s) ∨ takeReadNotices p s = signOf p (fetchNotices p s) := by
  unfold takeReadNotices
  split
  · exact .inl rfl
  · exact .inr rfl

/-- Settles O23: the two immediate requests, and the enable set by the port's kinds. -/
theorem repliesAndNoticesAreFetched : Obligations.RepliesAndNoticesAreFetched := by
  intro p s up
  have replies : exec (.readReply p) s = .next (sealDomain (takeReadReply p s)) := whenUp_up up
  have notices : exec (.readNotices p) s = .next (sealDomain (takeReadNotices p s)) := whenUp_up up
  refine ⟨?_, ?_, fun e u takes hu => ?_⟩
  · rw [replies, takeReadReply]
    rfl
  · rintro taken rfl
    rw [notices]
    refine ⟨?_, ?_⟩
    · rcases takeReadNotices_cases p s with before | after
      · exact .inl (by rw [before]; rfl)
      · exact .inr (by rw [after]; rfl)
    · rintro rfl
      rcases takeReadNotices_cases .meter s with before | after
      · rw [before]
        rfl
      · rw [after]
        rfl
  · have writes := exec_of_takes (owner := setNotices p e) takes hu rfl
    refine ⟨fun kinds => ?_, fun other => ?_⟩
    · have own : e < portKindsEnd p := by cases p <;> exact kinds
      rw [writes, setNotices_of_kinds own]
      rfl
    · have beyond : portKindsEnd p ≤ e := by cases p <;> exact other
      rw [writes, setNotices_of_other beyond]
      rfl

end Sys2Proof.Machine
end

section
/-! PROOFS. The reads of both ports, and what the remaining commands write: the settings (R36, R172, R173), the extras (R19, R45), the sign-on
(R65) and the STATUS report (R74, R75, R77). -/

namespace Sys2Proof.Machine

open Sys2Proof

/-! ## The reads (R30, R34, R46, R56, R61, R72, R78, R108, R115, R122, R142, R152, R174, R181) -/

/-- A read of a place in a list leaves the state as it was. -/
theorem readPosition_eq {α : Type} (bound n : Nat) (entries : List α) (data : α → List Byte) (u : State) :
    readPosition bound n entries data u = (u, readAnswer.positionAnswer bound n (entries[n - 1]?.map data)) := by
  have ranged : within 1 bound n = true ↔ 1 ≤ n ∧ n ≤ bound := decide_eq_true_iff
  unfold readPosition readAnswer.positionAnswer
  by_cases held : 1 ≤ n ∧ n ≤ bound
  · rw [if_pos (ranged.2 held), if_pos held]
    cases entries[n - 1]? <;> exact rfl
  · rw [if_neg fun inside => held (ranged.1 inside), if_neg held]
    rfl

theorem readSlot_eq (slot : Option Job) (u : State) :
    readSlot slot u = (u, readAnswer.positionAnswer 1 1 (slot.map (jobData u.pool))) := by cases slot <;> exact rfl

theorem readJob_eq (selector : Nat) (u : State) : some (readJob selector u) = (readAnswer u (.readJob selector)).map (fun a => (u, a)) := by
  rcases selector with _ | _ | n
  · exact congrArg some (readSlot_eq u.duty.current u)
  · exact congrArg some (readSlot_eq u.duty.next u)
  · exact rfl

/-- A read that leaves the state as it was is answered so. -/
theorem exec_of_read {p : Port} {c : Instr} {owner : State → Reply} {s u : State} {r : Result} {data : List Byte} (takes : Takes p c s)
    (hu : u = arrived p c s) (he : exec c s = whenUp (request p c owner) s) (reads : owner u = (u, r, data)) :
    exec c s = .next (replied p c r data u) := by
  rw [exec_of_takes takes hu he, reads]

/-- Settles O24: each read by its owner's answer. -/
theorem readsAnswerAndChangeNothing : Obligations.ReadsAnswerAndChangeNothing := by
  intro p c s u r data takes hu port answers
  have reads : ∀ {owner : State → Reply} {a : Result × List Byte}, readAnswer u c = some a →
      (exec c s = whenUp (request p c owner) s) → owner u = (u, a) → exec c s = .next (replied p c r data u) := by
    intro owner a own he leaves
    obtain rfl := Option.some.inj (own.symm.trans answers)
    exact exec_of_read takes hu he leaves
  cases c with
  | readTrip q =>
    obtain rfl := Option.some.inj port
    exact reads (owner := fun s => answer .ok (tripData s) s) rfl rfl rfl
  | readTotals =>
    obtain rfl := Option.some.inj port
    exact reads (owner := fun s => answer .ok (totalsData s.totals) s) rfl rfl rfl
  | readTariffCheck =>
    obtain rfl := Option.some.inj port
    exact reads (owner := fun s => answer .ok (tariffCheckData s.tariff) s) rfl rfl rfl
  | readClock =>
    obtain rfl := Option.some.inj port
    exact reads (owner := fun s => answer .ok (clockBytes s.tariff.clock) s) rfl rfl rfl
  | readInstallation =>
    obtain rfl := Option.some.inj port
    exact reads (owner := fun s => answer .ok (installationData s.settings) s) rfl rfl rfl
  | readEmergency =>
    obtain rfl := Option.some.inj port
    exact reads (owner := fun s => answer .ok (emergencyData s) s) rfl rfl rfl
  | readFaults =>
    obtain rfl := Option.some.inj port
    exact reads (owner := fun s => answer .ok (faultsData s.faults) s) rfl rfl rfl
  | readPriorities =>
    obtain rfl := Option.some.inj port
    exact reads (owner := fun s => answer .ok (levelsData (shownLevels s)) s) rfl rfl rfl
  | readStatus =>
    obtain rfl := Option.some.inj port
    exact reads (owner := fun s => answer .ok (statusData s) s) rfl rfl rfl
  | readClosed n =>
    obtain rfl := Option.some.inj port
    exact reads (owner := fun s => readPosition 8 n s.closed closedData s) rfl rfl (readPosition_eq 8 n _ _ u)
  | readOffer n =>
    obtain rfl := Option.some.inj port
    exact reads (owner := fun s => readPosition 8 n s.offers.entries (offerData s) s) rfl rfl (readPosition_eq 8 n _ _ u)
  | readMessage n =>
    obtain rfl := Option.some.inj port
    exact reads (owner := fun s => readPosition 16 n s.messages.inbound (inboundData s.pool) s) rfl rfl (readPosition_eq 16 n _ _ u)
  | readOutbound n =>
    obtain rfl := Option.some.inj port
    exact reads (owner := fun s => readPosition 6 n s.messages.outbound (outboundData s.pool) s) rfl rfl (readPosition_eq 6 n _ _ u)
  | readJob n =>
    obtain rfl := Option.some.inj port
    have job := readJob_eq n u
    rw [answers] at job
    exact reads (owner := readJob n) answers rfl (Option.some.inj job)
  | _ => cases answers

/-! ## The settings (R36, R172, R173) -/

section
variable {u : State}

/-- The two conditions of CALIBRATE and SET IDENTITY (R36, R172). -/
theorem offDutyIdle_iff : offDutyIdle u = true ↔ u.trip = none ∧ u.duty.state = .offDuty := by
  rw [offDutyIdle, Bool.and_eq_true, Option.isNone_iff_eq_none, decide_eq_true_eq]

theorem offDutyIdle_eq_false (engaged : u.trip.isSome ∨ u.duty.state ≠ .offDuty) : offDutyIdle u = false := by
  rw [← Bool.not_eq_true, offDutyIdle_iff]
  rintro ⟨no_trip, off⟩
  rcases engaged with trip | duty
  · rw [no_trip] at trip
    cases trip
  · exact duty off

theorem calibrate_of_engaged (engaged : u.trip.isSome ∨ u.duty.state ≠ .offDuty) (k : Nat) : calibrate k u = done .refusedState u :=
  if_pos (offDutyIdle_eq_false engaged)

theorem calibrate_of_idle (no_trip : u.trip = none) (off : u.duty.state = .offDuty) (k : Nat) :
    calibrate k u = if 500 ≤ k ∧ k ≤ 60000 then
        done .ok { u with settings := { u.settings with k := k }, dist := { u.dist with remainder := 0 } }
      else done .badValue u := by
  rw [calibrate, offDutyIdle_iff.2 ⟨no_trip, off⟩]
  simp only [within, decide_eq_true_eq, Bool.true_eq_false, if_false]

theorem setIdentity_of_engaged (engaged : u.trip.isSome ∨ u.duty.state ≠ .offDuty) (cab fleet : Nat) :
    setIdentity cab fleet u = done .refusedState u := if_pos (offDutyIdle_eq_false engaged)

theorem setIdentity_of_idle (no_trip : u.trip = none) (off : u.duty.state = .offDuty) (cab fleet : Nat) :
    setIdentity cab fleet u = if 1 ≤ cab ∧ cab ≤ 4095 ∧ 1 ≤ fleet ∧ fleet ≤ 255 then
        done .ok { u with settings := { u.settings with cab := cab, fleet := fleet } }
      else done .badValue u := by
  rw [setIdentity, offDutyIdle_iff.2 ⟨no_trip, off⟩]
  simp only [within, Bool.and_eq_true, decide_eq_true_eq, Bool.true_eq_false, if_false, and_assoc]

/-- A value is HELD at its bound exactly when it is out of its range (R168). -/
theorem heldIf_clamp {lo hi : Nat} (order : lo ≤ hi) (v : Nat) :
    heldIf (decide (clamp lo hi v ≠ v)) = if lo ≤ v ∧ v ≤ hi then .ok else .held := by
  have inside : clamp lo hi v = v ↔ lo ≤ v ∧ v ≤ hi := by
    rw [clamp]
    omega
  by_cases range : lo ≤ v ∧ v ≤ hi
  · rw [if_pos range, inside.2 range, heldIf, if_neg (by simp)]
  · rw [if_neg range, heldIf, if_pos (decide_eq_true (mt inside.1 range))]

/-- So the three values of a beacon set (R135, R173). -/
theorem heldIf_beaconClamp {least most : Nat} (order : least ≤ most) (a b c : Nat) :
    heldIf (decide (beaconClamp least most a b c ≠ ⟨a, b, c⟩)) =
      if 1 ≤ a ∧ a ≤ 8 ∧ 1 ≤ b ∧ b ≤ 30 ∧ least ≤ c ∧ c ≤ most then .ok else .held := by
  have inside : beaconClamp least most a b c = ⟨a, b, c⟩ ↔ 1 ≤ a ∧ a ≤ 8 ∧ 1 ≤ b ∧ b ≤ 30 ∧ least ≤ c ∧ c ≤ most := by
    rw [beaconClamp, BeaconSetting.mk.injEq, clamp, clamp, clamp]
    omega
  by_cases range : 1 ≤ a ∧ a ≤ 8 ∧ 1 ≤ b ∧ b ≤ 30 ∧ least ≤ c ∧ c ≤ most
  · rw [if_pos range, inside.2 range, heldIf, if_neg (by simp)]
  · rw [if_neg range, heldIf, if_pos (decide_eq_true (mt inside.1 range))]

theorem setAlarmVisible_of_flag {v : Nat} (flag : v ≤ 1) :
    setAlarmVisible v u = done .ok { u with settings := { u.settings with alarmVisible := decide (v = 1) } } := by
  obtain rfl | rfl : v = 0 ∨ v = 1 := by omega
  · rfl
  · rfl

theorem setAlarmVisible_of_other {v : Nat} (other : 2 ≤ v) : setAlarmVisible v u = done .badValue u := by
  unfold setAlarmVisible
  split <;> first | omega | rfl

end

/-- Settles O34: each setting by the state and the range of its values. -/
theorem installationSettingsAreWritten : Obligations.InstallationSettingsAreWritten := by
  refine ⟨⟨fun k s u takes hu => ?_, fun cab fleet s u takes hu => ?_⟩, fun s => ⟨fun v u takes hu => ?_, fun v u takes hu => ?_,
    fun a b c u takes hu => ?_, fun a b c u takes hu => ?_, fun v u takes hu => ?_, fun v u takes hu => ?_⟩⟩
  · have writes := exec_of_takes (owner := calibrate k) takes hu rfl
    refine ⟨fun engaged => ?_, fun no_trip off range => ?_, fun no_trip off outside => ?_⟩
    · rw [writes, calibrate_of_engaged engaged]
      rfl
    · rw [writes, calibrate_of_idle no_trip off, if_pos range]
      rfl
    · rw [writes, calibrate_of_idle no_trip off, if_neg outside]
      rfl
  · have writes := exec_of_takes (owner := setIdentity cab fleet) takes hu rfl
    refine ⟨fun engaged => ?_, fun no_trip off range => ?_, fun no_trip off outside => ?_⟩
    · rw [writes, setIdentity_of_engaged engaged]
      rfl
    · rw [writes, setIdentity_of_idle no_trip off, if_pos range]
      rfl
    · rw [writes, setIdentity_of_idle no_trip off, if_neg outside]
      rfl
  · rw [exec_of_takes (owner := setKeyLead v) takes hu rfl, setKeyLead, heldIf_clamp (by omega)]
    rfl
  · rw [exec_of_takes (owner := setStatusInterval v) takes hu rfl, setStatusInterval, heldIf_clamp (by omega)]
    rfl
  · rw [exec_of_takes (owner := setUrgentSet a b c) takes hu rfl, setUrgentSet, heldIf_beaconClamp (by omega)]
    rfl
  · rw [exec_of_takes (owner := setSustainedSet a b c) takes hu rfl, setSustainedSet, heldIf_beaconClamp (by omega)]
    rfl
  · have writes := exec_of_takes (owner := setAirRate v) takes hu rfl
    refine ⟨fun rate => ?_, fun other => ?_⟩
    · rw [writes, setAirRate, if_pos rate]
      rfl
    · rw [writes, setAirRate, if_neg fun rate => rate.elim other.1 other.2]
      rfl
  · have writes := exec_of_takes (owner := setAlarmVisible v) takes hu rfl
    refine ⟨fun flag => ?_, fun other => ?_⟩
    · rw [writes, setAlarmVisible_of_flag flag]
      rfl
    · rw [writes, setAlarmVisible_of_other other]
      rfl

/-! ## The extras (R19, R45) -/

section
variable {n m : Nat}

theorem find_raised (k : Nat) (extras : List (Nat × Nat)) :
    (extras.map (fun e => if e.1 = n then (e.1, e.2 + 1) else e)).find? (fun e => decide (e.1 = k)) =
      (extras.find? (fun e => decide (e.1 = k))).map (fun e => if e.1 = n then (e.1, e.2 + 1) else e) := by
  rw [List.find?_map]
  congr 1
  refine congrArg (fun p => extras.find? p) (funext fun e => ?_)
  simp only [Function.comp]
  split <;> rfl

/-- The count of the extra rises by one (R45). -/
theorem extraCount_raiseExtra_same (n : Nat) (extras : List (Nat × Nat)) : extraCount n (raiseExtra n extras) = extraCount n extras + 1 := by
  unfold raiseExtra
  split
  · rename_i held
    rw [extraCount, extraCount, find_raised]
    cases found : extras.find? (fun e => decide (e.1 = n)) with
    | none =>
      obtain ⟨e, he, own⟩ := List.any_eq_true.1 held
      exact absurd own (List.find?_eq_none.1 found e he)
    | some e =>
      have own : e.1 = n := by simpa using List.find?_some found
      simp [own]
  · rename_i absent
    have none_held : extras.find? (fun e => decide (e.1 = n)) = none := by
      simpa only [List.find?_eq_none, List.any_eq_true, not_exists, not_and] using absent
    rw [extraCount, extraCount, List.find?_append, none_held]
    simp

/-- Every other count stays. -/
theorem extraCount_raiseExtra_other (other : m ≠ n) (extras : List (Nat × Nat)) :
    extraCount m (raiseExtra n extras) = extraCount m extras := by
  unfold raiseExtra
  split
  · rw [extraCount, extraCount, find_raised]
    cases found : extras.find? (fun e => decide (e.1 = m)) with
    | none => rfl
    | some e =>
      have own : e.1 = m := by simpa using List.find?_some found
      simp [own, other]
  · rw [extraCount, extraCount, List.find?_append]
    simp [Ne.symm other]

end

section
variable {u : State} {t : Trip} {n : Nat}

theorem addExtra_of_idle (idle : u.trip = none) : addExtra n u = done .refusedState u := by rw [addExtra, idle]

theorem addExtra_of_unknown (trip : u.trip = some t) (unknown : extraMaximum u.tariff.active n = none) : addExtra n u = done .badValue u := by
  simp only [addExtra, trip, unknown]

theorem addExtra_of_known {most : Nat} (trip : u.trip = some t) (known : extraMaximum u.tariff.active n = some most) :
    addExtra n u = if most ≤ extraCount n t.extras then done .held u else done .ok (takeExtra n t u) := by
  simp only [addExtra, trip, known]

/-- A trip STOPPED is priced again, with its uplift as it was (R19). -/
theorem reprice_phase (active : Option StoredImage) (t : Trip) :
    (t.phase = .running → (t.reprice active).phase = .running) ∧
    ∀ total uplift, t.phase = .stopped total uplift → (t.reprice active).phase = .stopped (stoppedTotal active (t.reprice active)) uplift := by
  have same : stoppedTotal active (t.reprice active) = stoppedTotal active t := by cases active <;> rfl
  rw [same]
  refine ⟨fun running => ?_, fun total uplift stopped => ?_⟩
  · simp only [Trip.reprice, running]
  · simp only [Trip.reprice, stopped]

end

/-- Settles O30: by the trip, the maximum of the extra and its count. -/
theorem extrasAreCountedAndPriced : Obligations.ExtrasAreCountedAndPriced := by
  intro n s u takes hu
  have adds := exec_of_takes (owner := addExtra n) takes hu rfl
  refine ⟨fun idle => ?_, fun t trip => ⟨fun unknown => ?_, fun most known full => ?_, fun most known room => ?_⟩⟩
  · rw [adds, addExtra_of_idle idle]
    rfl
  · rw [adds, addExtra_of_unknown trip unknown]
    rfl
  · rw [adds, addExtra_of_known trip known, if_pos full]
    rfl
  · rw [adds, addExtra_of_known trip known, if_neg (Nat.not_le.2 room)]
    obtain ⟨running, stopped⟩ := reprice_phase u.tariff.active { t with extras := raiseExtra n t.extras }
    exact ⟨Trip.reprice u.tariff.active { t with extras := raiseExtra n t.extras }, rfl, rfl, extraCount_raiseExtra_same n t.extras,
      fun m other => extraCount_raiseExtra_other other t.extras, running, stopped⟩

/-! ## SIGN ON and SIGN OFF (R65) -/

section
variable {u : State}

theorem signOn_of_unset (unset : u.settings.cab = 0 ∨ u.settings.fleet = 0) : signOn u = done .noIdentity u := if_pos unset

theorem signOn_of_set (cab : u.settings.cab ≠ 0) (fleet : u.settings.fleet ≠ 0) :
    signOn u = if u.duty.signedOn then done .ok u else done .ok (takeSignOn u) := if_neg fun unset => unset.elim cab fleet

/-- The duty state after the flag is set, and after it is cleared (R65). -/
theorem DutyState.signedOn_eq (d : DutyState) : d.signedOn = if d = .offDuty then .vacant else d := by cases d <;> rfl

theorem DutyState.signedOff_eq (d : DutyState) :
    d.signedOff = if d = .vacant then .offDuty else if d = .clearing then .hired else d := by cases d <;> rfl

theorem signOff_of_off (off : u.duty.signedOn = false) : signOff u = done .ok u := if_pos off

theorem signOff_of_job (on : u.duty.signedOn = true)
    (job : u.duty.current.isSome ∨ u.duty.next.isSome ∨ ∃ o ∈ u.offers.entries, o.accepted = true) : signOff u = done .jobHeld u := by
  rw [signOff, if_neg (by simp [on])]
  exact if_pos (job.imp_right fun later => later.imp_right List.any_eq_true.2)

theorem signOff_of_free (on : u.duty.signedOn = true) (current : u.duty.current = none) (next : u.duty.next = none)
    (none_accepted : ∀ o ∈ u.offers.entries, o.accepted = false) : signOff u = done .ok (takeSignOff u) := by
  have free : acceptancePending u = false := by
    rw [acceptancePending, List.any_eq_false]
    exact fun o ho => by simp [none_accepted o ho]
  rw [signOff, if_neg (by simp [on])]
  exact if_neg (by simp [current, next, free])

end

/-- Settles O36: by the identity, the flag, the jobs and the acceptance. -/
theorem signingOnAndOff : Obligations.SigningOnAndOff := by
  refine ⟨fun s u takes hu => ?_, fun s u takes hu => ?_⟩
  · have signs := exec_of_takes (owner := signOn) takes hu rfl
    refine ⟨fun unset => ?_, fun cab fleet on => ?_, fun cab fleet off => ?_⟩
    · rw [signs, signOn_of_unset unset]
      rfl
    · rw [signs, signOn_of_set cab fleet, if_pos on]
      rfl
    · rw [signs, signOn_of_set cab fleet, if_neg (by simp [off]), takeSignOn, DutyState.signedOn_eq]
      rfl
  · have signs := exec_of_takes (owner := signOff) takes hu rfl
    refine ⟨fun off => ?_, fun on job => ?_, fun on current next none_accepted => ?_⟩
    · rw [signs, signOff_of_off off]
      rfl
    · rw [signs, signOff_of_job on job]
      rfl
    · rw [signs, signOff_of_free on current next none_accepted, takeSignOff, DutyState.signedOff_eq]
      rfl

/-! ## The STATUS report (R73 to R77, R155) -/

section
variable {s : State}

theorem takeStatusInterval_of_running {due : Nat} (timer : s.duty.statusDue = some due) :
    takeStatusInterval s = refreshStatus .interval (reach due s) := by rw [takeStatusInterval, timer]

theorem takeStatusInterval_of_stopped (stopped : s.duty.statusDue = none) : takeStatusInterval s = s := by rw [takeStatusInterval, stopped]

theorem takePresenceExpiry_of_present {due : Nat} (timer : s.duty.presenceDue = some due) (present : s.duty.presence = .present) :
    takePresenceExpiry s = dutyChanged .presence { reach due s with duty := { s.duty with presence := .absent, presenceDue := none } } := by
  rw [takePresenceExpiry, timer]
  exact if_pos present

theorem takePresenceExpiry_of_stopped (stopped : s.duty.presenceDue = none) : takePresenceExpiry s = s := by
  rw [takePresenceExpiry, stopped]

end

theorem refreshReserved_status_of_held {r : Radio} (held : ∃ e ∈ r.queue, e.kind = .status) (reason : StatusReason) :
    r.refreshReserved (.status reason) = { r with queue := r.queue.map (fun e =>
      if e.kind ≠ .status then e
      else if e.state ≠ .sending then { e with
        content := .status reason, seq := none, retry := 0, backoff := 0, state := .ready, carriesFailed := false }
      else if e.removed then { e with deferred := some (.status reason) }
      else { e with content := .status reason, refreshed := true }) } := by
  rw [Radio.refreshReserved_of_held held]
  refine congrArg (fun q => { r with queue := q }) (List.map_congr_left fun e _ => ?_)
  rw [Entry.refresh_eq]
  by_cases status : e.kind = .status
  · exact (if_pos status).trans (if_neg (not_not.2 status)).symm
  · exact (if_neg status).trans (if_pos status).symm

/-- Settles O39: the rows by their timers, and the report by the entry held. -/
theorem statusIsRenewedOnPollAndTime : Obligations.StatusIsRenewedOnPollAndTime := by
  refine ⟨fun a s heard => receive_of_delivered heard rfl, fun s up => ⟨fun due timer => ?_, fun stopped => ?_, fun due timer present => ?_,
    fun stopped => ?_⟩, ?_⟩
  · refine (whenUp_up up).trans ?_
    rw [takeStatusInterval_of_running timer]
    rfl
  · refine (whenUp_up up).trans ?_
    rw [takeStatusInterval_of_stopped stopped]
  · refine (whenUp_up up).trans ?_
    rw [takePresenceExpiry_of_present timer present]
    rfl
  · refine (whenUp_up up).trans ?_
    rw [takePresenceExpiry_of_stopped stopped]
  · rintro reason s d rfl
    refine ⟨fun absent => ?_, fun held => ?_⟩
    · rw [refreshStatus, Radio.refreshReserved_of_absent absent]
      rfl
    · rw [refreshStatus, refreshReserved_status_of_held held]

end Sys2Proof.Machine
end

section
/-! PROOFS. Loss of supply and the starts (R31, R49, R141, R164, R171, R178, R179), and CLEAR FAULTS (R181). -/

namespace Sys2Proof.Machine

open Sys2Proof

/-! ## A part that is down (R178) -/

/-- A part that is down takes nothing but the clock's tick, a loss and a start. -/
theorem exec_of_down {c : Instr} {s : State} (down : s.power = .down) (tick : c ≠ .clockTick) (start : c ≠ .start)
    (loss : ∀ f, c ≠ .vmainLossOrReset f) : exec c s = .next s := by
  cases c
  case clockTick => exact absurd rfl tick
  case start => exact absurd rfl start
  case vmainLossOrReset f => exact absurd rfl (loss f)
  case distPulse => exact whenUp_down (f := fun s => if s.settings.k = 0 then s else takePulse s) down
  all_goals exact whenUp_down down

/-! ## What a warm start finds and checks (R31, R178) -/

/-- The part as a warm start finds it: supplied, with the retained items alone (R179). -/
def foundPart (s : State) : State := { resetVolatile s with power := .up }

/-- The check of an image fails (R31). -/
def imageFails (i : Option StoredImage) : Bool := i.any (fun i => decide (imageCheck i.image ≠ i.check))

/-- An image that fails its check is discarded (R31). -/
def imageKept (i : Option StoredImage) : Option StoredImage := i.filter (fun i => decide (imageCheck i.image = i.check))

theorem imageKept_some (i : StoredImage) : imageKept (some i) = if imageCheck i.image = i.check then some i else none := by
  by_cases passes : imageCheck i.image = i.check <;> simp [imageKept, Option.filter, passes]

/-- An image that was kept passes the next check too. -/
theorem imageFails_imageKept (i : Option StoredImage) : imageFails (imageKept i) = false := by
  cases i with
  | none => rfl
  | some i =>
    rw [imageKept_some]
    by_cases passes : imageCheck i.image = i.check <;> simp [imageFails, passes]

/-- The log after both images were checked (R31). -/
def checkedFaults (s : State) : List FaultEntry :=
  logFault (imageFails s.tariff.pending) .tariffCheckFailed s.tariff.clock s.trip.isSome
    (logFault (imageFails s.tariff.active) .tariffCheckFailed s.tariff.clock s.trip.isSome s.faults)

/-- Both images checked (R31, R179 step 3). -/
theorem checkImages_eq (s : State) : checkPending (checkActive s) = { s with
    tariff := { s.tariff with active := imageKept s.tariff.active, pending := imageKept s.tariff.pending }
    faults := checkedFaults s
    meter := { s.meter with notices := s.meter.notices ||| (if imageFails s.tariff.active then 0x20 else 0) |||
      (if imageFails s.tariff.pending then 0x20 else 0) } } := by
  rw [checkPending_eq, checkActive_eq]
  rfl

/-- What a start makes of the trip it finds (R20 to R22, R49). -/
def Trip.found (active : Option StoredImage) (t : Trip) : Trip :=
  match t.phase with
  | .running => { t with interruptions := min (t.interruptions + 1) 15 }
  | .stopped _ _ => if active.isSome then t else { t with phase := .stopped t.fare 0 }

theorem Trip.found_of_running {t : Trip} (running : t.phase = .running) (active : Option StoredImage) :
    t.found active = { t with interruptions := min (t.interruptions + 1) 15 } := by rw [Trip.found, running]

theorem Trip.found_of_stopped {t : Trip} (stopped : t.phase ≠ .running) (active : Option StoredImage) :
    t.found active = if active.isSome then t else { t with phase := .stopped t.fare 0 } := by
  unfold Trip.found
  split
  · exact absurd ‹_› stopped
  · rfl

theorem continueTrip_trip (s : State) : (continueTrip s).trip = s.trip.map (Trip.found s.tariff.active) := by
  rw [continueTrip_eq]
  cases s.trip with
  | none => exact rfl
  | some t =>
    obtain ⟨phase⟩ := t
    cases phase <;> exact rfl

/-- The part after the steps on the images and the trip (R179 steps 3 and 4). -/
def foundTrip (s : State) : State := continueTrip (checkPending (checkActive (foundPart s)))

/-- The notices of the images and of the interruption (R20, R31, R180). -/
def foundNotices (s : State) : Byte :=
  0 ||| (if imageFails s.tariff.active then 0x20 else 0) ||| (if imageFails s.tariff.pending then 0x20 else 0) |||
    (if tripRunning s then 0x20 else 0) ||| (if tripRunning s then 0x10 else 0)

/-- The steps on the images and the trip, in one equation (R20 to R22, R31, R49). -/
theorem foundTrip_eq (s : State) : foundTrip s = { foundPart s with
    tariff := { s.tariff with active := imageKept s.tariff.active, pending := imageKept s.tariff.pending, staged := Staged.empty }
    trip := s.trip.map (Trip.found (imageKept s.tariff.active))
    totals := if tripRunning s then { s.totals with interruptions := min (s.totals.interruptions + 1) 999999999 } else s.totals
    evalDue := if tripRunning s then (if (imageKept s.tariff.active).isSome then some 1000 else none) else none
    faults := logFault (tripRunning s) .powerInterrupted s.tariff.clock true (checkedFaults s)
    meter := { PortState.reset meterKinds with notices := foundNotices s } } := by
  have trip := continueTrip_trip (checkPending (checkActive (foundPart s)))
  unfold foundTrip
  rw [checkImages_eq] at trip ⊢
  rw [continueTrip_eq] at trip ⊢
  simp only at trip
  simp only [trip]
  rfl

/-! ## The emergency and the FARE TOTAL of a warm start (R141, R179 steps 5 and 6) -/

/-- Some closed trip is unreported (R57). -/
def unreported (s : State) : Bool := s.closed.any (fun c => !c.reported)

/-- The Radio Link before the beacon restarts: the FARE TOTAL of an unreported entry, and the levels at 0 in an emergency (R141, R179). -/
def startedRadio (s : State) : Radio := { Radio.reset with
  queue := if unreported s then [newEntry .fareTotal 1] else []
  nextArrival := if unreported s then 2 else 1
  levels := if inEmergency s then Levels.zero else Levels.default }

/-- The Alarm Unit before the beacon restarts (R141). -/
def startedAlarm (s : State) : AlarmUnit :=
  if inEmergency s then { AlarmUnit.reset s.alarm.record with
    record := { s.alarm.record with cancelOpen := false }, saved := some Levels.default }
  else AlarmUnit.reset s.alarm.record

/-- The part after step 6 of a warm start (R179). -/
def started (s : State) : State := ensureFareTotal (continueEmergency (foundTrip s))

theorem createReserved_reset (c : Content) (l : Levels) : ({ Radio.reset with levels := l } : Radio).createReserved c =
    { Radio.reset with queue := [newEntry c 1], nextArrival := 2, levels := l } := rfl

/-- An emergency found is continued (R141, items 1, 2, 3 and 5), and otherwise nothing is changed. -/
theorem continueEmergency_eq (x : State) : continueEmergency x = { x with
    alarm := if inEmergency x then { x.alarm with
        record := { x.alarm.record with cancelOpen := false }, saved := some Levels.default }
      else x.alarm
    radio := { x.radio with levels := if inEmergency x then Levels.zero else x.radio.levels }
    meter := { x.meter with notices := x.meter.notices ||| (if inEmergency x then 0x08 else 0) }
    terminal := { x.terminal with notices := x.terminal.notices ||| (if inEmergency x && x.settings.alarmVisible then 0x80 else 0) } } := by
  unfold continueEmergency
  cases inEmergency x with
  | false =>
    simp only [Bool.false_and, Bool.false_eq_true, if_false, notices_or_zero]
  | true =>
    unfold noticeEmergency
    cases visible : x.settings.alarmVisible with
    | false =>
      simp only [Bool.true_and, Bool.false_eq_true, if_true, if_false, notices_or_zero]
      rfl
    | true =>
      simp only [Bool.true_and, if_true]
      rfl

theorem started_eq (s : State) : started s = { foundTrip s with
    radio := startedRadio s
    alarm := startedAlarm s
    meter := { PortState.reset meterKinds with notices := foundNotices s ||| (if inEmergency s then 0x08 else 0) }
    terminal := { PortState.reset terminalKinds with
      notices := 0 ||| (if inEmergency s && s.settings.alarmVisible then 0x80 else 0) } } := by
  have emergency : inEmergency (foundTrip s) = inEmergency s := by rw [foundTrip_eq]; rfl
  have closed : (continueEmergency (foundTrip s)).closed = s.closed := by rw [continueEmergency_eq, foundTrip_eq]; rfl
  unfold started
  rw [ensureFareTotal_eq, closed, continueEmergency_eq, emergency, startedRadio, unreported, foundTrip_eq]
  cases s.closed.any (fun c => !c.reported) <;> rfl

/-! ## The beacon restarts (R139, R141, R163; log 36) -/

/-- A mark that begins now: its first burst is silenced while the hold count stands above 0 (R135, R136). -/
theorem beginMark_of_hold (s : State) : beginMark s = { s with
    radio := if s.alarm.record.hold = 0 then (makeAlert false (emergencyCode s.alarm.record.state) (startCycle s.now s)).radio else s.radio
    alarm := { s.alarm with
      cycle := some (newCycle s.now s).advance
      record := { s.alarm.record with position := some (newCycle s.now s).positionAfter, hold := s.alarm.record.hold - 1 } } } := by
  by_cases free : s.alarm.record.hold = 0
  · rw [beginMark_eq free, if_pos free, free]
  · have held : (newCycle s.now s).held = true := decide_eq_true (Nat.pos_of_ne_zero free)
    rw [if_neg free, beginMark, burst, held]
    rfl

/-- The cycle of the set in force after its first burst (R135). -/
theorem newCycle_advance_of_setting (s : State) : (newCycle s.now s).advance = {
    count := (beaconSetting s.settings s.alarm.record.beaconSet).count, spacing := (beaconSetting s.settings s.alarm.record.beaconSet).spacing
    space := (beaconSetting s.settings s.alarm.record.beaconSet).space, held := decide (0 < s.alarm.record.hold)
    nextBurst := if 1 < (beaconSetting s.settings s.alarm.record.beaconSet).count then 2 else 1
    due := s.now + (if 1 < (beaconSetting s.settings s.alarm.record.beaconSet).count then
      (beaconSetting s.settings s.alarm.record.beaconSet).spacing else (beaconSetting s.settings s.alarm.record.beaconSet).space) * 1000 } := by
  unfold BeaconCycle.advance newCycle
  dsimp only
  split <;> rfl

/-- What a blind frame says of the part (R138, R139, R176). -/
theorem blindFrame_congr {u v : State} (status : Nat) (settings : u.settings = v.settings) (now : u.now = v.now) (trip : u.trip = v.trip)
    (duty : u.duty = v.duty) (fix : u.radio.fix = v.radio.fix) (presses : u.alarm.record.presses = v.alarm.record.presses)
    (startTime : u.alarm.record.startTime = v.alarm.record.startTime) : blindFrame status u = blindFrame status v := by
  simp only [blindFrame, uplinkFrame, alertPayload, fareSoFar, fixAge, settings, now, trip, duty, fix, presses, startTime]

/-- The state of the emergency is as it was found. -/
theorem started_inEmergency (s : State) : inEmergency (started s) = inEmergency s := by
  have state : (startedAlarm s).record.state = s.alarm.record.state := by
    unfold startedAlarm
    split <;> rfl
  rw [started_eq, inEmergency, inEmergency, state]

/-- The check value is no part of a frame. -/
theorem blindFrame_sealDomain (status : Nat) (u : State) : blindFrame status (sealDomain u) = blindFrame status u :=
  blindFrame_congr status rfl rfl rfl rfl rfl rfl rfl

/-- A warm start with no emergency found. -/
theorem warmStart_of_normal {s : State} (normal : inEmergency s = false) : warmStart s = started s :=
  if_neg (Bool.eq_false_iff.1 ((started_inEmergency s).trans normal))

/-- A warm start with an emergency found. -/
theorem warmStart_of_emergency {s : State} (emergency : inEmergency s = true) : warmStart s = beginMark (started s) :=
  if_pos ((started_inEmergency s).trans emergency)

/-- The restart of the beacon reaches the Alarm Unit and the Radio Link alone. -/
theorem warmStart_rest (s : State) :
    warmStart s = { started s with radio := (warmStart s).radio, alarm := (warmStart s).alarm } := by
  cases emergency : inEmergency s with
  | false => rw [warmStart_of_normal emergency]
  | true => rw [warmStart_of_emergency emergency, beginMark_of_hold]

theorem warmStart_now (s : State) : (warmStart s).now = 0 := by
  rw [warmStart_rest, started_eq, foundTrip_eq]
  rfl

/-- The Alarm Unit after a warm start, under the values of the set in force (R135, R141). -/
theorem warmStart_alarm (s : State) {x : BeaconSetting} (setting : x = beaconSetting s.settings s.alarm.record.beaconSet) :
    (warmStart s).alarm = {
      record := if inEmergency s then { s.alarm.record with
          cancelOpen := false, hold := s.alarm.record.hold - 1, position := some (1, if 1 < x.count then .mark else .space) }
        else s.alarm.record
      cycle := if inEmergency s then some {
          count := x.count, spacing := x.spacing, space := x.space, held := decide (0 < s.alarm.record.hold)
          nextBurst := if 1 < x.count then 2 else 1, due := 0 + (if 1 < x.count then x.spacing else x.space) * 1000 }
        else none
      saved := if inEmergency s then some Levels.default else none
      cancelDue := none, latch := false, line0 := ⟨none, false, false⟩, line1 := ⟨none, false, false⟩ } := by
  subst setting
  cases emergency : inEmergency s with
  | false =>
    rw [warmStart_of_normal emergency, started_eq, startedAlarm, emergency]
    rfl
  | true =>
    rw [warmStart_of_emergency emergency, beginMark_of_hold, newCycle_advance_of_setting, started_eq, startedAlarm, emergency, foundTrip_eq]
    rfl

theorem startedRadio_removeOwned_alert (s : State) : (startedRadio s).removeOwned .alert = startedRadio s := by
  unfold startedRadio
  cases unreported s <;> rfl

/-- A blind ALERT goes out at once where the transmitter is free and the identity set (R139, R163). -/
theorem makeAlert_radio_of_silent {w : State} (cancelled : Bool) (status : Nat) (lost : w.radio.link = .lost) (silent : w.radio.tx = none) :
    (makeAlert cancelled status w).radio = { w.radio.removeOwned .alert with
      tx := if w.settings.cab ≠ 0 ∧ w.settings.fleet ≠ 0 then
          some ⟨.blind, blindFrame status w, w.now, w.now + sendTime w (blindFrame status w).length⟩
        else none } := by
  have same : blindFrame status { w with radio := w.radio.removeOwned .alert } = blindFrame status w :=
    blindFrame_congr status rfl rfl rfl rfl rfl rfl rfl
  have quiet : (w.radio.removeOwned .alert).tx = none := silent
  rw [makeAlert_of_lost lost, sendBlind_eq, same]
  simp only [quiet, and_true, ne_eq, not_true_eq_false, and_false, if_false]
  rfl

/-- The Radio Link after a warm start: the burst of an emergency that is not held goes out blind (R139, R141, R164; log 36). -/
theorem warmStart_radio (s : State) : (warmStart s).radio = { startedRadio s with
    tx := if inEmergency s = true ∧ s.alarm.record.hold = 0 ∧ s.settings.cab ≠ 0 ∧ s.settings.fleet ≠ 0 then
        some ⟨.blind, blindFrame (emergencyCode s.alarm.record.state) (started s), 0,
          0 + sendTime (started s) (blindFrame (emergencyCode s.alarm.record.state) (started s)).length⟩
      else none } := by
  have radio : (started s).radio = startedRadio s := by rw [started_eq]
  cases emergency : inEmergency s with
  | false =>
    rw [warmStart_of_normal emergency, if_neg (by simp), radio]
    rfl
  | true =>
    have record : (started s).alarm.record = { s.alarm.record with cancelOpen := false } := by rw [started_eq, startedAlarm, emergency]; rfl
    rw [warmStart_of_emergency emergency, beginMark_of_hold]
    by_cases free : s.alarm.record.hold = 0
    · generalize cycling : startCycle (started s).now (started s) = w
      have began : w.radio = startedRadio s := by rw [← cycling]; exact radio
      have settings : w.settings = s.settings := by rw [← cycling, startCycle, started_eq, foundTrip_eq]; rfl
      have now : w.now = 0 := by rw [← cycling, startCycle, started_eq, foundTrip_eq]; rfl
      have frame : ∀ status, blindFrame status w = blindFrame status (started s) := fun status => by
        rw [← cycling]
        exact blindFrame_congr status rfl rfl rfl rfl rfl rfl rfl
      have time : ∀ n, sendTime w n = sendTime (started s) n := fun n => by rw [← cycling]; rfl
      have lost : w.radio.link = .lost := by rw [began]; rfl
      have silent : w.radio.tx = none := by rw [began]; rfl
      have alert := makeAlert_radio_of_silent false (emergencyCode s.alarm.record.state) lost silent
      rw [began, startedRadio_removeOwned_alert, settings, now, frame, time] at alert
      simp only [record, free, if_true, alert, true_and]
    · simp only [record, free, if_false, radio, false_and, and_false]
      rfl

/-- The frame that the burst of a warm start sends, read from the state after it (R138, R139). -/
theorem warmStart_blindFrame (status : Nat) (s : State) : blindFrame status (warmStart s) = blindFrame status (started s) := by
  have rest := warmStart_rest s
  have radio : (started s).radio = startedRadio s := by rw [started_eq]
  have record : (warmStart s).alarm.record.presses = (started s).alarm.record.presses ∧
      (warmStart s).alarm.record.startTime = (started s).alarm.record.startTime := by
    cases emergency : inEmergency s with
    | false => rw [warmStart_of_normal emergency]; exact ⟨rfl, rfl⟩
    | true => rw [warmStart_of_emergency emergency, beginMark_of_hold]; exact ⟨rfl, rfl⟩
  refine blindFrame_congr status ?_ ?_ ?_ ?_ ?_ record.1 record.2
  · rw [rest]
  · rw [rest]
  · rw [rest]
  · rw [rest]
  · rw [warmStart_radio, radio]

/-! ## What a warm start leaves (R20 to R22, R31, R49, R141, R164, R179) -/

/-- The parts of which a warm start lets the images and the trip decide. -/
theorem warmStart_found (s : State) : changesOnly [.radio, .alarm, .meter, .terminal] (foundTrip s) (warmStart s) := by
  rw [warmStart_rest, started_eq]
  intro f outside
  cases f <;> first | rfl | exact absurd (by decide) outside

theorem warmStart_trip (s : State) : (warmStart s).trip = s.trip.map (Trip.found (imageKept s.tariff.active)) := by
  rw [warmStart_found s .trip (by decide), foundTrip_eq]

theorem warmStart_faults (s : State) :
    (warmStart s).faults = logFault (tripRunning s) .powerInterrupted s.tariff.clock true (checkedFaults s) := by
  rw [warmStart_found s .faults (by decide), foundTrip_eq]

/-- The notices of the Meter Port after a warm start (R49, R142, R180). -/
theorem startNotices_eq (bad_active bad_pending running emergency : Bool) :
    (0 : Byte) ||| (if bad_active then 0x20 else 0) ||| (if bad_pending then 0x20 else 0) ||| (if running then 0x20 else 0) |||
        (if running then 0x10 else 0) ||| (if emergency then 0x08 else 0) =
      (if bad_active || bad_pending || running then 0x20 else 0) ||| (if running then 0x10 else 0) ||| (if emergency then 0x08 else 0) := by
  revert bad_active bad_pending running emergency
  decide

/-! ## A start that a loss abandons (R179; logs 5 to 7) -/

/-- A loss leaves the retained items as they were, and a start finds them so. -/
theorem warmSteps_goDown (r : StartReach) (s : State) : warmSteps r (goDown s) = warmSteps r s := rfl

/-- A start of a part whose check value agrees, abandoned after a step (R178, R179). -/
theorem losePower_leftByStart {s : State} (agrees : domainAgrees s = true) (r : StartReach) :
    losePower (.leftByStart r) s = goDown (sealDomain (warmSteps r s)) := by
  have warm : startAs (warmSteps r) (goDown s) = sealDomain (warmSteps r s) := if_pos agrees
  exact congrArg goDown warm

theorem domainAgrees_goDown_sealDomain (x : State) : domainAgrees (goDown (sealDomain x)) = true := by
  rw [domainAgrees_goDown, domainAgrees_sealDomain]

/-- After the steps on the images alone the trip is as it was found (R31). -/
theorem warmSteps_images (s : State) : (warmSteps .images s).trip = s.trip ∧ (warmSteps .images s).faults = checkedFaults s := by
  have checked : warmSteps .images s = checkPending (checkActive (foundPart s)) := rfl
  rw [checked, checkImages_eq]
  exact ⟨rfl, rfl⟩

/-- The steps after the images and the trip leave what these made. -/
theorem warmSteps_after_trip {r : StartReach} (after : r = .trip ∨ r = .emergency) (s : State) :
    changesOnly [.alarm, .radio, .meter, .terminal] (foundTrip s) (warmSteps r s) := by
  rcases after with rfl | rfl
  · exact changesOnly_refl _ _
  · exact continueEmergency_frame _

theorem warmSteps_active {r : StartReach} (checked : r ≠ .kind) (s : State) : (warmSteps r s).tariff.active = imageKept s.tariff.active := by
  cases r with
  | kind => exact absurd rfl checked
  | activeImage =>
    have active : warmSteps .activeImage s = checkActive (foundPart s) := rfl
    rw [active, checkActive_eq]
    rfl
  | images =>
    have images : warmSteps .images s = checkPending (checkActive (foundPart s)) := rfl
    rw [images, checkImages_eq]
    rfl
  | trip => rw [warmSteps_after_trip (.inl rfl) s .tariff (by decide), foundTrip_eq]
  | emergency => rw [warmSteps_after_trip (.inr rfl) s .tariff (by decide), foundTrip_eq]

theorem warmSteps_clock (r : StartReach) (s : State) : (warmSteps r s).tariff.clock = s.tariff.clock := by
  have checked : (checkActive (foundPart s)).tariff.clock = s.tariff.clock := by rw [checkActive_eq]; rfl
  cases r with
  | kind => rfl
  | activeImage => exact checked
  | images =>
    have images : warmSteps .images s = checkPending (checkActive (foundPart s)) := rfl
    rw [images, checkImages_eq]
    rfl
  | trip => rw [warmSteps_after_trip (.inl rfl) s .tariff (by decide), foundTrip_eq]
  | emergency => rw [warmSteps_after_trip (.inr rfl) s .tariff (by decide), foundTrip_eq]

/-- A start that counted an interruption and was abandoned leaves the trip RUNNING and the images checked: the next counts and logs a second
one, and logs no image again (R31, R49, R179). -/
theorem start_after_counted {s : State} {t : Trip} {r : StartReach} (after : r = .trip ∨ r = .emergency) (trip : s.trip = some t)
    (running : t.phase = .running) {v : State} (left : v = goDown (sealDomain (warmSteps r s))) :
    v.trip = some { t with interruptions := min (t.interruptions + 1) 15 } ∧
    v.totals = { s.totals with interruptions := min (s.totals.interruptions + 1) 999999999 } ∧
    ∃ u, exec .start v = .next u ∧ u.trip = some { t with interruptions := min (t.interruptions + 2) 15 } ∧
      u.faults = logFault true .powerInterrupted s.tariff.clock true v.faults := by
  have kept := warmSteps_after_trip after s
  have runs : tripRunning s = true := by rw [tripRunning, trip, tripCode, running]; rfl
  have found : v.trip = some { t with interruptions := min (t.interruptions + 1) 15 } := by
    have made : v.trip = (foundTrip s).trip := by rw [left]; exact kept .trip (by decide)
    rw [made, foundTrip_eq, trip, Option.map_some, Trip.found_of_running running]
  have totals : v.totals = { s.totals with interruptions := min (s.totals.interruptions + 1) 999999999 } := by
    have made : v.totals = (foundTrip s).totals := by rw [left]; exact kept .totals (by decide)
    rw [made, foundTrip_eq]
    exact if_pos runs
  have tariff : v.tariff = { s.tariff with active := imageKept s.tariff.active, pending := imageKept s.tariff.pending, staged := Staged.empty } := by
    have made : v.tariff = { (foundTrip s).tariff with staged := Staged.empty } := by
      rw [left, ← kept .tariff (by decide)]
      rfl
    rw [made, foundTrip_eq]
  have again : tripRunning v = true := by rw [tripRunning, found, tripCode, running]; rfl
  have agrees : domainAgrees v = true := by rw [left]; exact domainAgrees_goDown_sealDomain _
  have starts : exec .start v = .next (sealDomain (warmStart v)) := congrArg Host.Outcome.next (if_pos agrees)
  refine ⟨found, totals, _, starts, ?_, ?_⟩
  · have interrupted : ({ t with interruptions := min (t.interruptions + 1) 15 } : Trip).phase = .running := running
    rw [sealDomain_trip, warmStart_trip, found, Option.map_some, Trip.found_of_running interrupted]
    have twice : min (min (t.interruptions + 1) 15 + 1) 15 = min (t.interruptions + 2) 15 := by omega
    simp only [twice]
  · rw [sealDomain_faults, warmStart_faults, checkedFaults, tariff, again]
    simp only [imageFails_imageKept]
    rfl

/-! ## CLEAR FAULTS (R181) -/

theorem clearFaults_of_idle {u : State} (idle : u.trip = none) : clearFaults u = done .ok { u with faults := [] } := if_neg (by simp [idle])

theorem clearFaults_of_trip {u : State} (trip : u.trip.isSome) : clearFaults u = done .refusedState u := if_pos trip

/-! ## What a loss leaves (R171, R178) -/

/-- All that is not retained stands at its reset value, and the part is down (R178). -/
def Unsupplied (v : State) : Prop :=
  v.power = .down ∧ v.tariff.staged = Staged.empty ∧ v.radio = Radio.reset ∧ v.offers = OfferTable.reset ∧ v.messages = MessageStore.reset ∧
  v.pool = poolFree ∧ v.dist = ⟨0, 0⟩ ∧ v.duty = { DutyUnit.reset with state := if v.trip.isSome then .hired else .offDuty } ∧
  v.evalDue = none ∧ v.resumeDue = none ∧ v.handed = [] ∧ v.meter = { buffer := .empty, notices := 0, enabled := 0x3F, answer := [] } ∧
  v.terminal = { buffer := .empty, notices := 0, enabled := 0xFF, answer := [] } ∧ v.alarm = {
    record := v.alarm.record, cancelDue := none, cycle := none, saved := none, latch := false
    line0 := ⟨none, false, false⟩, line1 := ⟨none, false, false⟩ }

theorem goDown_unsupplied (x : State) : Unsupplied (goDown x) :=
  ⟨rfl, rfl, rfl, rfl, rfl, rfl, rfl, rfl, rfl, rfl, rfl, rfl, rfl, rfl⟩

/-- Damage to an image reaches no item that is not retained (R31). -/
theorem Unsupplied.damage {v w : State} (down : Unsupplied v) (staged : w.tariff.staged = v.tariff.staged)
    (rest : w = { v with tariff := w.tariff, domainCheck := w.domainCheck }) : Unsupplied w := by
  obtain ⟨power, empty, others⟩ := down
  rw [rest]
  exact ⟨power, staged.trans empty, others⟩

theorem losePower_unsupplied (fate : DomainFate) (s : State) : Unsupplied (losePower fate s) := by
  cases fate with
  | kept => exact goDown_unsupplied s
  | lost => exact (goDown_unsupplied s).damage rfl rfl
  | activeDamaged => exact (goDown_unsupplied s).damage rfl rfl
  | pendingDamaged => exact (goDown_unsupplied s).damage rfl rfl
  | bothDamaged => exact (goDown_unsupplied s).damage rfl rfl
  | leftByStart r => exact goDown_unsupplied _

/-- A domain that is lost agrees with its check value no more (R178; log 6). -/
theorem losePower_lost_disagrees (s : State) : (losePower .lost s).domainCheck ≠ computeDomainCheck (losePower .lost s) := by
  intro agree
  have agrees : domainAgrees (domainFate .lost (goDown s)) = true := (domainAgrees_iff _).2 agree
  rw [domainAgrees_lost] at agrees
  cases agrees

/-! ## The two kinds of start (R178) -/

theorem exec_start_of_agrees {s : State} (agrees : domainAgrees s = true) : exec .start s = .next (sealDomain (warmStart s)) :=
  congrArg Host.Outcome.next (if_pos agrees)

theorem exec_start_of_disagrees {s : State} (disagrees : domainAgrees s = false) :
    exec .start s = .next { State.reset with pending := s.pending, draws := s.draws } :=
  congrArg Host.Outcome.next (if_neg (by simp [disagrees]))

theorem losePower_leftByStart_of_disagrees {s : State} (disagrees : domainAgrees s = false) (r : StartReach) :
    losePower (.leftByStart r) s = goDown (coldStart s) := by
  have cold : startAs (warmSteps r) (goDown s) = coldStart (goDown s) := if_neg (by simp [domainAgrees_goDown, disagrees])
  exact congrArg goDown cold

/-- What a completed warm start leaves as the images and the trip have it, its check value brought up to date. -/
theorem warmStart_sealed (s : State) : changesOnly [.radio, .alarm, .meter, .terminal] (foundTrip s) (sealDomain (warmStart s)) :=
  changesOnly_trans (warmStart_found s) (changesOnly_mono (sealDomain_frame _) (by simp))

theorem foundTrip_volatile (s : State) : (foundTrip s).power = .up ∧ (foundTrip s).closed = s.closed ∧ (foundTrip s).settings = s.settings ∧
    (foundTrip s).duty = { DutyUnit.reset with state := if s.trip.isSome then .hired else .offDuty } ∧
    (foundTrip s).offers = OfferTable.reset ∧ (foundTrip s).messages = MessageStore.reset ∧ (foundTrip s).pool = poolFree ∧
    (foundTrip s).dist = ⟨0, 0⟩ ∧ (foundTrip s).handed = [] ∧ (foundTrip s).resumeDue = none := by
  rw [foundTrip_eq]
  exact ⟨rfl, rfl, rfl, rfl, rfl, rfl, rfl, rfl, rfl, rfl⟩

theorem foundTrip_tariff (s : State) : (foundTrip s).tariff = { s.tariff with
    active := imageKept s.tariff.active, pending := imageKept s.tariff.pending, staged := Staged.empty } := by rw [foundTrip_eq]

theorem foundTrip_totals (s : State) : (foundTrip s).totals = if tripRunning s then
    { s.totals with interruptions := min (s.totals.interruptions + 1) 999999999 } else s.totals := by rw [foundTrip_eq]

theorem foundTrip_evalDue (s : State) : (foundTrip s).evalDue = if tripRunning s && (imageKept s.tariff.active).isSome then some 1000 else none := by
  rw [foundTrip_eq]
  cases tripRunning s <;> rfl

theorem warmStart_meter (s : State) : (warmStart s).meter = {
    buffer := .empty, enabled := 0x3F, answer := []
    notices := (if imageFails s.tariff.active || imageFails s.tariff.pending || tripRunning s then 0x20 else 0) |||
      (if tripRunning s then 0x10 else 0) ||| (if inEmergency s then 0x08 else 0) } := by
  rw [← startNotices_eq, warmStart_rest, started_eq]
  rfl

theorem warmStart_terminal (s : State) : (warmStart s).terminal = {
    buffer := .empty, enabled := 0xFF, answer := [], notices := if inEmergency s && s.settings.alarmVisible then 0x80 else 0 } := by
  rw [warmStart_rest, started_eq]
  cases inEmergency s && s.settings.alarmVisible <;> rfl

/-- The part of a blind frame's time that its lead is, and its air time (R150), under the settings that a start finds. -/
theorem started_sendTime (s : State) (bytes : Nat) :
    sendTime (started s) bytes = s.settings.keyLead + (bytes * 8000 + s.settings.airRate - 1) / s.settings.airRate := by
  have settings : (started s).settings = s.settings := by rw [started_eq, foundTrip_eq]; rfl
  rw [sendTime_eq, settings]

/-- The retained items of a part whose supply is lost (R178). -/
theorem goDown_sealDomain_retained (x : State) : (goDown (sealDomain x)).closed = x.closed ∧ (goDown (sealDomain x)).settings = x.settings ∧
    (goDown (sealDomain x)).tariff = { x.tariff with staged := Staged.empty } ∧ (goDown (sealDomain x)).trip = x.trip ∧
    (goDown (sealDomain x)).faults = x.faults ∧ (goDown (sealDomain x)).power = .down ∧ (goDown (sealDomain x)).radio = Radio.reset :=
  ⟨rfl, rfl, rfl, rfl, rfl, rfl, rfl⟩

/-- Settles O60: the part that is down, the losses, the cold, the warm and the abandoned start, and CLEAR FAULTS. -/
theorem supplyLossAndStarts : Obligations.SupplyLossAndStarts := by
  refine ⟨fun c s down tick start loss => exec_of_down down tick start loss, fun s => ?_, fun fate s => ⟨_, rfl, losePower_unsupplied fate s⟩,
    fun s => ⟨_, rfl, losePower_power .lost s, losePower_lost_disagrees s⟩, fun s differs => ?_, fun s same => ⟨?_, fun r => ?_⟩,
    fun s u takes hu => ?_⟩
  · exact ⟨goDown s, rfl, rfl, computeDomainCheck_goDown s, rfl, rfl, rfl, rfl, rfl, rfl, rfl⟩
  · have disagrees : domainAgrees s = false := Bool.eq_false_iff.2 (mt (domainAgrees_iff s).1 differs)
    refine ⟨exec_start_of_disagrees disagrees, fun r => ⟨goDown (coldStart s), ?_, rfl, ?_, rfl, rfl, rfl, rfl, rfl, rfl, rfl⟩⟩
    · exact congrArg Host.Outcome.next (losePower_leftByStart_of_disagrees disagrees r)
    · rw [goDown_domainCheck, computeDomainCheck_goDown]
      exact coldStart_agrees s
  · rintro bad_active bad_pending running emergency x rfl rfl rfl rfl setting
    have set : x = beaconSetting s.settings s.alarm.record.beaconSet := by
      rw [setting]
      cases s.alarm.record.beaconSet <;> exact rfl
    have made := warmStart_sealed s
    have now : (sealDomain (warmStart s)).now = 0 := (sealDomain_now _).trans (warmStart_now s)
    have tariff := (made .tariff (by decide)).trans (foundTrip_tariff s)
    obtain ⟨power, closed, settings, duty, offers, messages, pool, dist, handed, resumeDue⟩ := foundTrip_volatile s
    have kept : (sealDomain (warmStart s)).tariff.active = imageKept s.tariff.active := by rw [tariff]
    refine ⟨_, exec_start_of_agrees ((domainAgrees_iff s).2 same), (made .power (by decide)).trans power, domainCheck_sealDomain _,
      (made .closed (by decide)).trans closed, (made .settings (by decide)).trans settings, tariff, (made .duty (by decide)).trans duty,
      (made .offers (by decide)).trans offers, (made .messages (by decide)).trans messages, (made .pool (by decide)).trans pool,
      (made .dist (by decide)).trans dist, (made .handed (by decide)).trans handed, (made .resumeDue (by decide)).trans resumeDue, ?_,
      fun no_trip => ?_, fun t trip runs => ⟨?_, ?_⟩, fun t trip stopped => ?_, fun not_running => ?_, ?_, ?_, ?_, ?_, ?_⟩
    · rw [now, kept]
      exact (made .evalDue (by decide)).trans (foundTrip_evalDue s)
    · rw [sealDomain_trip, warmStart_trip, no_trip]
      rfl
    · rw [sealDomain_trip, warmStart_trip, trip, Option.map_some, Trip.found_of_running runs]
    · have running : tripRunning s = true := by rw [tripRunning, trip, tripCode, runs]; rfl
      exact (made .totals (by decide)).trans ((foundTrip_totals s).trans (if_pos running))
    · rw [sealDomain_trip, warmStart_trip, trip, Option.map_some, Trip.found_of_stopped stopped, kept]
    · exact (made .totals (by decide)).trans ((foundTrip_totals s).trans (if_neg (by simp [not_running])))
    · rw [sealDomain_faults, warmStart_faults]
      rfl
    · rw [sealDomain_meter, warmStart_meter]
      rfl
    · rw [sealDomain_terminal, warmStart_terminal]
      rfl
    · rw [sealDomain_alarm, now, warmStart_alarm s set]
      rfl
    · rintro frame rfl
      have sealed : blindFrame (emergencyCode s.alarm.record.state) (sealDomain (warmStart s)) =
          blindFrame (emergencyCode s.alarm.record.state) (started s) :=
        (blindFrame_sealDomain _ _).trans (warmStart_blindFrame _ s)
      rw [blindFrame] at sealed
      rw [sealed, sealDomain_radio, now, warmStart_radio, started_sendTime]
      rfl
  · have left : exec (.vmainLossOrReset (.leftByStart r)) s = .next (goDown (sealDomain (warmSteps r s))) :=
      congrArg Host.Outcome.next (losePower_leftByStart ((domainAgrees_iff s).2 same) r)
    obtain ⟨closed, settings, tariff, trip, faults, power, radio⟩ := goDown_sealDomain_retained (warmSteps r s)
    have frame := warmSteps_frame r s
    refine ⟨_, left, power, ?_, ?_, ?_, ?_, radio, fun checked i active => ?_, ?_, fun after t found running => ?_⟩
    · rw [goDown_domainCheck, computeDomainCheck_goDown, domainCheck_sealDomain]
    · exact closed.trans (frame .closed (by decide))
    · exact settings.trans (frame .settings (by decide))
    · rw [tariff]
      exact warmSteps_clock r s
    · rw [tariff, ← imageKept_some, ← active]
      exact warmSteps_active checked s
    · rintro rfl
      exact ⟨trip.trans (warmSteps_images s).1, faults.trans (warmSteps_images s).2⟩
    · exact start_after_counted after found running rfl
  · have clears := exec_of_takes (owner := clearFaults) takes hu rfl
    refine ⟨fun idle => ?_, fun trip => ?_⟩
    · rw [clears, clearFaults_of_idle idle]
      rfl
    · rw [clears, clearFaults_of_trip trip]
      rfl

end Sys2Proof.Machine
end
